-- ==== Sys2Proof/Word.lean ====
section
/-! DEFINITION. The word types of SFTM: a transport byte, a 16-bit parameter, a time stamp. -/

namespace Sys2Proof

/-- A transport byte, W_BYTE = 8 bits (00_scope.md R5). -/
abbrev Byte := BitVec 8

/-- A `u16`: a parameter, an argument, a checksum, W_PARAM = 16 bits (00_scope.md R5). -/
abbrev U16 := BitVec 16

/-- A time stamp or a duration, W_TIME = 32 bits in units of one millisecond (00_scope.md R6).
Subtraction wraps modulo 2^32 and comparison is unsigned (43_transaction.md R152). -/
abbrev Time := BitVec 32

end Sys2Proof
end

