-- ==== Sys2Proof/Config.lean ====
section
/-! DEFINITION. The fixed parameters (00_scope.md R5), the closed sets of names the spec gives, the
open parameters (R6) and the free draws of unspecified values (10_state.md R23). -/

namespace Sys2Proof

/-- The twelve event kinds, in the spec's order (10_state.md R19). -/
inductive EventKind
  | playFinished | usbOnline | cardOnline | cardUsbOnline | usbInserted | cardInserted
  | usbRemoved | cardRemoved | error | feedBack | wrongStack | timeOut
  deriving DecidableEq, Repr, Inhabited

/-- The ten positions of the receiver in a frame (10_state.md R11). -/
inductive RxState
  | idle | expectVersion | expectLength | expectCommand | expectAck | expectParamHigh
  | expectParamLow | expectChecksumHigh | expectChecksumLow | expectEnd
  deriving DecidableEq, Repr, Inhabited

/-- The six causes of a FrameError: five of MalformedStack (60_exceptions.md R181), one of TimedOut
(R182). -/
inductive ErrCause
  | badVersion | badLength | badEnd | badChecksum | unlistedCommand | timedOut
  deriving DecidableEq, Repr, Inhabited

namespace Config

/-- Frame byte 0 (00_scope.md R5). -/
def HDR : Byte := 0x7E
/-- Frame byte 1 (00_scope.md R5). -/
def VER : Byte := 0xFF
/-- Frame byte 2 (00_scope.md R5). -/
def LEN : Byte := 0x06
/-- Frame byte 9 (00_scope.md R5). -/
def END : Byte := 0xEF
/-- The command byte of the acknowledgment frame (00_scope.md R5). -/
def CMD_ACK : Byte := 0x41
/-- The delay after a send that requires no acknowledgment (00_scope.md R5). -/
def QUIESCE : Time := 10
/-- The longest wait for an event after the reset command in INIT (00_scope.md R5). -/
def RESET_WAIT : Time := 2000
/-- The argument sent with RESET_CMD (00_scope.md R6, decided). -/
def RESET_ARG : U16 := 0x0000
/-- The event kind INIT assumes without a reset of the peripheral (00_scope.md R6, decided). -/
def INIT_ASSUMED_KIND : EventKind := .cardOnline

/-- OPEN (00_scope.md R6): TIMEOUT_DEFAULT less one. A number below 2^32 - 1, so that TIMEOUT_DEFAULT is
a positive duration and nothing else about it can be proved. Log entry 4. -/
opaque timeoutDefaultLessOne : Fin 4294967295

/-- TIMEOUT_DEFAULT, an OPEN duration > 0 (00_scope.md R6). -/
def TIMEOUT_DEFAULT : Time := BitVec.ofNat 32 (timeoutDefaultLessOne.val + 1)

/-- SETTLE_DELAY, an OPEN duration >= 0 (00_scope.md R6). Log entry 4. -/
opaque SETTLE_DELAY : Time

/-- RESET_CMD, an OPEN byte (00_scope.md R6). Log entry 4. -/
opaque RESET_CMD : Byte

/-- ERR_PARAM, an OPEN function of the cause: what `S.ev.parameter` holds after an error
(00_scope.md R6, 42_classifier.md R136, R138). Log entry 4. -/
opaque ERR_PARAM : ErrCause → U16

/-- A free byte: the value of an unspecified byte field after the reset line acted, for the given
draw and field number (10_state.md R23 "it may draw it freely"). Log entry 5. -/
opaque freeByte : Nat → Nat → Byte
/-- A free 16-bit value, as `freeByte`. -/
opaque freeU16 : Nat → Nat → U16
/-- A free time value, as `freeByte`. -/
opaque freeTime : Nat → Nat → Time
/-- A free bit, as `freeByte`. -/
opaque freeBool : Nat → Nat → Bool
/-- A free event kind, one of the twelve (93_implementation_defined.md U5), as `freeByte`. -/
opaque freeKind : Nat → Nat → EventKind

end Config

end Sys2Proof
end

