-- ==== Sys2Proof/Syntax.lean ====
section
/-! DEFINITION. The syntax: the frame, and one constructor of `Instr` for each row of the opcode
table. -/

namespace Sys2Proof

/-- The one frame format, ten bytes, byte 0 first (30_encoding.md R60). -/
structure Frame where
  /-- byte 0 -/
  header : Byte
  /-- byte 1 -/
  version : Byte
  /-- byte 2 -/
  length : Byte
  /-- byte 3 -/
  command : Byte
  /-- byte 4 -/
  ackFlag : Byte
  /-- byte 5, bits 15:8 of the argument or parameter -/
  paramHi : Byte
  /-- byte 6, bits 7:0 of the argument or parameter -/
  paramLo : Byte
  /-- byte 7, bits 15:8 of the checksum -/
  cksumHi : Byte
  /-- byte 8, bits 7:0 of the checksum -/
  cksumLo : Byte
  /-- byte 9 -/
  endMark : Byte
  deriving DecidableEq, Repr, Inhabited

/-- The instructions of SFTM in the sense of 00_scope.md R7: one constructor for each row of
`spec/opcode_table.json`, in the table's order. -/
inductive Instr
  -- HOST64, the host operation port (30_encoding.md R69)
  | nop
  | init (ackMode performReset : Bool)
  | send (command : Byte) (argument : U16) (ackRequired : Bool)
  | poll
  | waitev (maxDuration : Time)
  | rdkind
  | rdparam
  | rdcmd
  | query (command : Byte) (argument : U16)
  | sendm (command : Byte) (argument : U16)
  | reservedOpA
  | reservedOpB
  | reservedOpC
  | reservedOpD
  | reservedOpE
  | reservedOpF
  -- FRAME80, the pure functions of the FrameCodec (40_framecodec.md R80 to R83)
  | checksum (b1 b2 b3 b4 b5 b6 : Byte)
  | encode (command ackFlag : Byte) (argument : U16)
  | decode (f : Frame)
  | validate (f : Frame)
  -- RXFRAME80, a received frame by command and parameter bits (42_classifier.md R111 to R132, R137):
  -- the ackFlag byte, the parameter and the checksum field as received
  | rx3aUsbinserted (ackFlag : Byte) (parameter cksum : U16)
  | rx3aCardinserted (ackFlag : Byte) (parameter cksum : U16)
  | rx3aNomatch (ackFlag : Byte) (parameter cksum : U16)
  | rx3bUsbremoved (ackFlag : Byte) (parameter cksum : U16)
  | rx3bCardremoved (ackFlag : Byte) (parameter cksum : U16)
  | rx3bNomatch (ackFlag : Byte) (parameter cksum : U16)
  | rx3cFeedback (ackFlag : Byte) (parameter cksum : U16)
  | rx3dPlayfinished (ackFlag : Byte) (parameter cksum : U16)
  | rx3eFeedback (ackFlag : Byte) (parameter cksum : U16)
  | rx3fUsbonline (ackFlag : Byte) (parameter cksum : U16)
  | rx3fCardonline (ackFlag : Byte) (parameter cksum : U16)
  | rx3fNomatch (ackFlag : Byte) (parameter cksum : U16)
  | rx40Error (ackFlag : Byte) (parameter cksum : U16)
  | rx41Ack (ackFlag : Byte) (parameter cksum : U16)
  | rx42Feedback (ackFlag : Byte) (parameter cksum : U16)
  | rx43Feedback (ackFlag : Byte) (parameter cksum : U16)
  | rx44Feedback (ackFlag : Byte) (parameter cksum : U16)
  | rx45Feedback (ackFlag : Byte) (parameter cksum : U16)
  | rx46Feedback (ackFlag : Byte) (parameter cksum : U16)
  | rx47Feedback (ackFlag : Byte) (parameter cksum : U16)
  | rx48Feedback (ackFlag : Byte) (parameter cksum : U16)
  | rx49Feedback (ackFlag : Byte) (parameter cksum : U16)
  | rx4bFeedback (ackFlag : Byte) (parameter cksum : U16)
  | rx4cFeedback (ackFlag : Byte) (parameter cksum : U16)
  | rx4dFeedback (ackFlag : Byte) (parameter cksum : U16)
  | rx4eFeedback (ackFlag : Byte) (parameter cksum : U16)
  | rx4fFeedback (ackFlag : Byte) (parameter cksum : U16)
  | rxUnlisted001f (command ackFlag : Byte) (parameter cksum : U16)
  | rxUnlisted202f (command ackFlag : Byte) (parameter cksum : U16)
  | rxUnlisted3037 (command ackFlag : Byte) (parameter cksum : U16)
  | rxUnlisted3839 (command ackFlag : Byte) (parameter cksum : U16)
  | rxUnlisted4a (ackFlag : Byte) (parameter cksum : U16)
  | rxUnlisted505f (command ackFlag : Byte) (parameter cksum : U16)
  | rxUnlisted607f (command ackFlag : Byte) (parameter cksum : U16)
  | rxUnlisted80ff (command ackFlag : Byte) (parameter cksum : U16)
  -- TXFRAME80, the frame SEND writes (43_transaction.md R142)
  | txFrame (command : Byte) (ackRequired : Bool) (argument : U16)
  -- RXBYTE12, one byte step of the receiver in each of its states (41_receiver.md R91 to R100)
  | rxstepIdle (b : Byte)
  | rxstepExpectVersion (b : Byte)
  | rxstepExpectLength (b : Byte)
  | rxstepExpectCommand (b : Byte)
  | rxstepExpectAck (b : Byte)
  | rxstepExpectParamHigh (b : Byte)
  | rxstepExpectParamLow (b : Byte)
  | rxstepExpectChecksumHigh (b : Byte)
  | rxstepExpectChecksumLow (b : Byte)
  | rxstepExpectEnd (b : Byte)
  deriving DecidableEq, Repr

/-- The four pure functions of the FrameCodec. They have no operation code (30_encoding.md R69): the
name itself selects one. -/
inductive CodecFn
  | checksum | encode | decode | validate
  deriving DecidableEq, Repr

/-- A word of the opcode table, in the format that the place it is read from gives it: the host port
(HOST64), a codec function's operand (FRAME80), the received frame (RXFRAME80), the transmit buffer
(TXFRAME80), the receiver position with the next byte (RXBYTE12). -/
inductive Code
  | host (h : BitVec 64)
  | codec (fn : CodecFn) (f : BitVec 80)
  | rxFrame (f : BitVec 80)
  | txFrame (f : BitVec 80)
  | rxByte (w : BitVec 12)
  deriving DecidableEq, Repr

end Sys2Proof
end

