-- ==== Sys2Proof/Machine/Operands.lean ====
section
/-! DEFINITION. Operand forms: the byte order of the 16-bit fields and the assembly of arguments
(20_memory.md R46, 30_encoding.md R62, R63). -/

namespace Sys2Proof

/-- Bits 15:8, the byte that comes first on the wire (20_memory.md R46). -/
def hiByte (v : U16) : Byte := v.extractLsb' 8 8

/-- Bits 7:0, the byte that comes second on the wire (20_memory.md R46). -/
def loByte (v : U16) : Byte := v.extractLsb' 0 8

/-- `hi ++ lo`, the 16-bit value of two bytes of a frame (30_encoding.md R62). -/
def pairU16 (hi lo : Byte) : U16 := hi ++ lo

/-- `zext_16` of a byte (00_scope.md R8). -/
def zext16 (b : Byte) : U16 := b.setWidth 16

/-- `zext_32` of a parameter (44_driver.md R165). -/
def zext32 (v : U16) : BitVec 32 := v.setWidth 32

/-- The argument of a command with two 8-bit arguments (30_encoding.md R62). -/
def argOfBytes (a b : Byte) : U16 := pairU16 a b

/-- The argument of a command with one 8-bit argument (30_encoding.md R62). -/
def argOfByte (v : Byte) : U16 := zext16 v

/-- The ackFlag byte of a sent frame (30_encoding.md R63). -/
def ackByte (ackRequired : Bool) : Byte := if ackRequired then 0x01 else 0x00

/-- The 16-bit parameter of a frame (30_encoding.md R62). -/
def Frame.parameter (f : Frame) : U16 := pairU16 f.paramHi f.paramLo

/-- The 16-bit checksum field of a frame (30_encoding.md R61). -/
def Frame.cksum (f : Frame) : U16 := pairU16 f.cksumHi f.cksumLo

/-- The ten bytes of a frame in index order (20_memory.md R43). -/
def Frame.bytes (f : Frame) : List Byte :=
  [f.header, f.version, f.length, f.command, f.ackFlag, f.paramHi, f.paramLo, f.cksumHi, f.cksumLo,
    f.endMark]

/-- A frame with the fixed constants and the given variable fields (30_encoding.md R60). -/
def frameOf (command ackFlag : Byte) (parameter cksum : U16) : Frame :=
  { header := Config.HDR, version := Config.VER, length := Config.LEN, command := command,
    ackFlag := ackFlag, paramHi := hiByte parameter, paramLo := loByte parameter,
    cksumHi := hiByte cksum, cksumLo := loByte cksum, endMark := Config.END }

end Sys2Proof
end

