-- ==== Sys2Proof/Machine/Codec.lean ====
section
/-! DEFINITION. The FrameCodec as pure functions (40_framecodec.md R80 to R83). -/

namespace Sys2Proof

/-- CHECKSUM (40_framecodec.md R80): the negation modulo 2^16 of the sum of frame bytes 1 to 6. -/
def checksumOf (b1 b2 b3 b4 b5 b6 : Byte) : U16 :=
  0 - (zext16 b1 + zext16 b2 + zext16 b3 + zext16 b4 + zext16 b5 + zext16 b6)

/-- The checksum of a frame with the fixed version and length bytes (30_encoding.md R64). -/
def frameChecksum (command ackFlag : Byte) (parameter : U16) : U16 :=
  checksumOf Config.VER Config.LEN command ackFlag (hiByte parameter) (loByte parameter)

/-- ENCODE (40_framecodec.md R81). -/
def encodeFrame (command ackFlag : Byte) (argument : U16) : Frame :=
  frameOf command ackFlag argument (frameChecksum command ackFlag argument)

/-- DECODE (40_framecodec.md R82). It checks nothing. -/
def decodeFrame (f : Frame) : Byte × U16 := (f.command, f.parameter)

/-- VALIDATE (40_framecodec.md R83): the four constant tests and the checksum test. -/
def validateFrame (f : Frame) : Bool :=
  f.header == Config.HDR && f.version == Config.VER && f.length == Config.LEN
    && f.endMark == Config.END
    && f.cksum == checksumOf f.version f.length f.command f.ackFlag f.paramHi f.paramLo

end Sys2Proof
end

