-- ==== Sys2Proof/WellFormed.lean ====
section
/-! DEFINITION. Well-formed instructions: those whose operands lie in the pattern of their row of the
opcode table. -/

namespace Sys2Proof

/-- The constant bytes of the frame pattern: 7E FF 06 at bytes 0 to 2 and EF at byte 9
(30_encoding.md R61). -/
def Frame.hasConstants (f : Frame) : Bool :=
  f.header == Config.HDR && f.version == Config.VER && f.length == Config.LEN
    && f.endMark == Config.END

/-- The operands of `i` lie in the pattern (match and mask) of its row of the opcode table. An operand
outside it has no word of that row; the meaning is defined for it all the same. The checksum field
of a received frame is no part of the pattern (log entry 13). -/
def Instr.wf : Instr → Bool
  | .nop | .init .. | .send .. | .poll | .waitev _ | .rdkind | .rdparam | .rdcmd | .query ..
  | .sendm .. | .reservedOpA | .reservedOpB | .reservedOpC | .reservedOpD | .reservedOpE
  | .reservedOpF => true
  | .checksum b1 b2 _ _ _ _ => b1 == Config.VER && b2 == Config.LEN
  | .encode .. => true
  | .decode f => f.hasConstants
  | .validate f => f.hasConstants
  | .rx3aUsbinserted _ p _ => p.getLsbD 0
  | .rx3aCardinserted _ p _ => !p.getLsbD 0 && p.getLsbD 1
  | .rx3aNomatch _ p _ => !p.getLsbD 0 && !p.getLsbD 1
  | .rx3bUsbremoved _ p _ => p.getLsbD 0
  | .rx3bCardremoved _ p _ => !p.getLsbD 0 && p.getLsbD 1
  | .rx3bNomatch _ p _ => !p.getLsbD 0 && !p.getLsbD 1
  | .rx3fUsbonline _ p _ => p.getLsbD 0
  | .rx3fCardonline _ p _ => !p.getLsbD 0 && p.getLsbD 1
  | .rx3fNomatch _ p _ => !p.getLsbD 0 && !p.getLsbD 1
  | .rx3cFeedback .. | .rx3dPlayfinished .. | .rx3eFeedback .. | .rx40Error .. | .rx41Ack ..
  | .rx42Feedback .. | .rx43Feedback .. | .rx44Feedback .. | .rx45Feedback .. | .rx46Feedback ..
  | .rx47Feedback .. | .rx48Feedback .. | .rx49Feedback .. | .rx4bFeedback .. | .rx4cFeedback ..
  | .rx4dFeedback .. | .rx4eFeedback .. | .rx4fFeedback .. | .rxUnlisted4a .. => true
  | .rxUnlisted001f c _ _ _ => decide (c.toNat ≤ 0x1F)
  | .rxUnlisted202f c _ _ _ => decide (0x20 ≤ c.toNat ∧ c.toNat ≤ 0x2F)
  | .rxUnlisted3037 c _ _ _ => decide (0x30 ≤ c.toNat ∧ c.toNat ≤ 0x37)
  | .rxUnlisted3839 c _ _ _ => decide (0x38 ≤ c.toNat ∧ c.toNat ≤ 0x39)
  | .rxUnlisted505f c _ _ _ => decide (0x50 ≤ c.toNat ∧ c.toNat ≤ 0x5F)
  | .rxUnlisted607f c _ _ _ => decide (0x60 ≤ c.toNat ∧ c.toNat ≤ 0x7F)
  | .rxUnlisted80ff c _ _ _ => decide (0x80 ≤ c.toNat)
  | .txFrame .. => true
  | .rxstepIdle _ | .rxstepExpectVersion _ | .rxstepExpectLength _ | .rxstepExpectCommand _
  | .rxstepExpectAck _ | .rxstepExpectParamHigh _ | .rxstepExpectParamLow _
  | .rxstepExpectChecksumHigh _ | .rxstepExpectChecksumLow _ | .rxstepExpectEnd _ => true

/-- `i` is well formed. -/
abbrev WellFormed (i : Instr) : Prop := i.wf = true

end Sys2Proof
end

