-- ==== Sys2Proof/Decode.lean ====
section
/-! DEFINITION. The decoder, total and rejecting by name, and after it the encoder, both from the
bit layouts of 30_encoding.md (R61 for frames, R69 for host words) and 10_state.md R11 (the codes of
the receiver positions). -/

namespace Sys2Proof

/-- Why a word is no instruction. -/
inductive DecodeError
  /-- Bits 57:56 of a host word with op 0x0 to 0x9 are not 0: refused (93_implementation_defined.md U9). -/
  | nonZeroZeroBits
  /-- The constant bytes 7E FF 06 .. EF are not there (30_encoding.md R61). -/
  | notAFrame
  /-- The ackFlag byte of a transmitted frame is neither 0x00 nor 0x01 (30_encoding.md R63). -/
  | badTxAckFlag
  /-- The checksum field of a transmitted frame is not the computed one (30_encoding.md R64). -/
  | badTxChecksum
  /-- The receiver code is 10 to 15, which no state has (41_receiver.md R108). -/
  | unreachableRxCode
  deriving DecidableEq, Repr

/-- The code of a receiver position: the byte offset it waits for (10_state.md R11). -/
def RxState.code : RxState → BitVec 4
  | .idle => 0 | .expectVersion => 1 | .expectLength => 2 | .expectCommand => 3 | .expectAck => 4
  | .expectParamHigh => 5 | .expectParamLow => 6 | .expectChecksumHigh => 7
  | .expectChecksumLow => 8 | .expectEnd => 9

/-- The receiver position of a code; 10 to 15 are no position (10_state.md R11). -/
def RxState.ofCode (c : BitVec 4) : Option RxState :=
  if c = 0 then some .idle
  else if c = 1 then some .expectVersion
  else if c = 2 then some .expectLength
  else if c = 3 then some .expectCommand
  else if c = 4 then some .expectAck
  else if c = 5 then some .expectParamHigh
  else if c = 6 then some .expectParamLow
  else if c = 7 then some .expectChecksumHigh
  else if c = 8 then some .expectChecksumLow
  else if c = 9 then some .expectEnd
  else none

/-- A frame as one 80-bit value, byte 0 in the highest bits (30_encoding.md R61). -/
def Frame.toBits (f : Frame) : BitVec 80 :=
  f.header ++ f.version ++ f.length ++ f.command ++ f.ackFlag ++ f.paramHi ++ f.paramLo
    ++ f.cksumHi ++ f.cksumLo ++ f.endMark

/-- The ten bytes of an 80-bit value (30_encoding.md R61). -/
def Frame.ofBits (v : BitVec 80) : Frame :=
  { header := v.extractLsb' 72 8, version := v.extractLsb' 64 8, length := v.extractLsb' 56 8,
    command := v.extractLsb' 48 8, ackFlag := v.extractLsb' 40 8, paramHi := v.extractLsb' 32 8,
    paramLo := v.extractLsb' 24 8, cksumHi := v.extractLsb' 16 8, cksumLo := v.extractLsb' 8 8,
    endMark := v.extractLsb' 0 8 }

/-- A host word from its fields (30_encoding.md R69): op 63:60, a 59, r 58, zero 57:56, command 55:48,
argument 47:32, duration 31:0. -/
def hostWord (op : BitVec 4) (a r : Bool) (command : Byte) (argument : U16) (duration : Time) :
    BitVec 64 :=
  op ++ BitVec.ofBool a ++ BitVec.ofBool r ++ 0#2 ++ command ++ argument ++ duration

/-- Decoding a word of the host port (30_encoding.md R69). Fields an operation does not use are
ignored. -/
def decodeHost (h : BitVec 64) : Except DecodeError Instr :=
  let op := h.extractLsb' 60 4
  let a := h.getLsbD 59
  let r := h.getLsbD 58
  let command := h.extractLsb' 48 8
  let argument := h.extractLsb' 32 16
  let duration := h.extractLsb' 0 32
  if op = 0xA then .ok .reservedOpA
  else if op = 0xB then .ok .reservedOpB
  else if op = 0xC then .ok .reservedOpC
  else if op = 0xD then .ok .reservedOpD
  else if op = 0xE then .ok .reservedOpE
  else if op = 0xF then .ok .reservedOpF
  else if h.extractLsb' 56 2 ≠ 0 then .error .nonZeroZeroBits
  else if op = 0x0 then .ok .nop
  else if op = 0x1 then .ok (.init a r)
  else if op = 0x2 then .ok (.send command argument a)
  else if op = 0x3 then .ok .poll
  else if op = 0x4 then .ok (.waitev duration)
  else if op = 0x5 then .ok .rdkind
  else if op = 0x6 then .ok .rdparam
  else if op = 0x7 then .ok .rdcmd
  else if op = 0x8 then .ok (.query command argument)
  else .ok (.sendm command argument)

/-- The operand of a pure function, read from the ten bytes it is given (FRAME80, 40_framecodec.md R80
to R83). The functions have no operation code and accept every operand, so nothing is rejected. -/
def decodeCodec (fn : CodecFn) (v : BitVec 80) : Instr :=
  let f := Frame.ofBits v
  match fn with
  | .checksum => .checksum f.version f.length f.command f.ackFlag f.paramHi f.paramLo
  | .encode => .encode f.command f.ackFlag f.parameter
  | .decode => .decode f
  | .validate => .validate f

/-- The rows of command 0x3A: parameter bit 0 is tested before bit 1 (42_classifier.md R133). -/
def rx3aRow (a : Byte) (p k : U16) : Instr :=
  if p.getLsbD 0 then .rx3aUsbinserted a p k
  else if p.getLsbD 1 then .rx3aCardinserted a p k else .rx3aNomatch a p k

/-- The rows of command 0x3B, in the same order. -/
def rx3bRow (a : Byte) (p k : U16) : Instr :=
  if p.getLsbD 0 then .rx3bUsbremoved a p k
  else if p.getLsbD 1 then .rx3bCardremoved a p k else .rx3bNomatch a p k

/-- The rows of command 0x3F, in the same order. -/
def rx3fRow (a : Byte) (p k : U16) : Instr :=
  if p.getLsbD 0 then .rx3fUsbonline a p k
  else if p.getLsbD 1 then .rx3fCardonline a p k else .rx3fNomatch a p k

/-- The rows FEEDBACK of the commands up to 0x47, where `c` is one of them. -/
def rxFeedbackLowRow (c a : Byte) (p k : U16) : Option Instr :=
  if c = 0x3C then some (.rx3cFeedback a p k)
  else if c = 0x3E then some (.rx3eFeedback a p k)
  else if c = 0x42 then some (.rx42Feedback a p k)
  else if c = 0x43 then some (.rx43Feedback a p k)
  else if c = 0x44 then some (.rx44Feedback a p k)
  else if c = 0x45 then some (.rx45Feedback a p k)
  else if c = 0x46 then some (.rx46Feedback a p k)
  else if c = 0x47 then some (.rx47Feedback a p k)
  else none

/-- The rows FEEDBACK of the commands from 0x48 on, where `c` is one of them. -/
def rxFeedbackHighRow (c a : Byte) (p k : U16) : Option Instr :=
  if c = 0x48 then some (.rx48Feedback a p k)
  else if c = 0x49 then some (.rx49Feedback a p k)
  else if c = 0x4B then some (.rx4bFeedback a p k)
  else if c = 0x4C then some (.rx4cFeedback a p k)
  else if c = 0x4D then some (.rx4dFeedback a p k)
  else if c = 0x4E then some (.rx4eFeedback a p k)
  else if c = 0x4F then some (.rx4fFeedback a p k)
  else none

/-- The rows UNLISTED, by the range the command lies in. -/
def rxUnlistedRow (c a : Byte) (p k : U16) : Instr :=
  if c.toNat ≤ 0x1F then .rxUnlisted001f c a p k
  else if c.toNat ≤ 0x2F then .rxUnlisted202f c a p k
  else if c.toNat ≤ 0x37 then .rxUnlisted3037 c a p k
  else if c.toNat ≤ 0x39 then .rxUnlisted3839 c a p k
  else if c = 0x4A then .rxUnlisted4a a p k
  else if c.toNat ≤ 0x5F then .rxUnlisted505f c a p k
  else if c.toNat ≤ 0x7F then .rxUnlisted607f c a p k
  else .rxUnlisted80ff c a p k

/-- The row of a received frame by its command byte and, for 0x3A, 0x3B and 0x3F, parameter bits 0
and 1 (30_encoding.md R65, 42_classifier.md R133). -/
def rxRow (c a : Byte) (p k : U16) : Instr :=
  if c = 0x3A then rx3aRow a p k
  else if c = 0x3B then rx3bRow a p k
  else if c = 0x3D then .rx3dPlayfinished a p k
  else if c = 0x3F then rx3fRow a p k
  else if c = 0x40 then .rx40Error a p k
  else if c = 0x41 then .rx41Ack a p k
  else ((rxFeedbackLowRow c a p k).or (rxFeedbackHighRow c a p k)).getD (rxUnlistedRow c a p k)

/-- Decoding a received frame (RXFRAME80, 30_encoding.md R61, R65). The checksum field is an operand,
not a test: the meaning tests it (log entry 13). -/
def decodeRxFrame (v : BitVec 80) : Except DecodeError Instr :=
  let f := Frame.ofBits v
  if f.hasConstants then .ok (rxRow f.command f.ackFlag f.parameter f.cksum)
  else .error .notAFrame

/-- Decoding the transmit buffer (TXFRAME80, 43_transaction.md R142). -/
def decodeTxFrame (v : BitVec 80) : Except DecodeError Instr :=
  let f := Frame.ofBits v
  if f.hasConstants = false then .error .notAFrame
  else if f.ackFlag ≠ 0x00 ∧ f.ackFlag ≠ 0x01 then .error .badTxAckFlag
  else if f.cksum ≠ frameChecksum f.command f.ackFlag f.parameter then .error .badTxChecksum
  else .ok (.txFrame f.command (f.ackFlag == 0x01) f.parameter)

/-- The byte step of a receiver position (41_receiver.md R90). -/
def rxStepRow (r : RxState) (b : Byte) : Instr :=
  match r with
  | .idle => .rxstepIdle b
  | .expectVersion => .rxstepExpectVersion b
  | .expectLength => .rxstepExpectLength b
  | .expectCommand => .rxstepExpectCommand b
  | .expectAck => .rxstepExpectAck b
  | .expectParamHigh => .rxstepExpectParamHigh b
  | .expectParamLow => .rxstepExpectParamLow b
  | .expectChecksumHigh => .rxstepExpectChecksumHigh b
  | .expectChecksumLow => .rxstepExpectChecksumLow b
  | .expectEnd => .rxstepExpectEnd b

/-- Decoding a receiver byte step (RXBYTE12): the state code in 11:8, the byte in 7:0. -/
def decodeRxByte (w : BitVec 12) : Except DecodeError Instr :=
  match RxState.ofCode (w.extractLsb' 8 4) with
  | some r => .ok (rxStepRow r (w.extractLsb' 0 8))
  | none => .error .unreachableRxCode

/-- The decoder. -/
def decode : Code → Except DecodeError Instr
  | .host h => decodeHost h
  | .codec fn v => .ok (decodeCodec fn v)
  | .rxFrame v => decodeRxFrame v
  | .txFrame v => decodeTxFrame v
  | .rxByte w => decodeRxByte w

/-- The word of a received frame. -/
def rxWord (c a : Byte) (p k : U16) : Code := .rxFrame (frameOf c a p k).toBits

/-- The word of a byte step. -/
def rxByteWord (r : RxState) (b : Byte) : Code := .rxByte (r.code ++ b)

/-- The word of a host operation. -/
def hostCode (op : BitVec 4) (a r : Bool) (command : Byte) (argument : U16) (duration : Time) : Code :=
  .host (hostWord op a r command argument duration)

/-- The encoder: the word of a well-formed instruction, the fields it does not use 0. -/
def encode : Instr → Code
  | .nop => hostCode 0x0 false false 0 0 0
  | .init a r => hostCode 0x1 a r 0 0 0
  | .send c g a => hostCode 0x2 a false c g 0
  | .poll => hostCode 0x3 false false 0 0 0
  | .waitev d => hostCode 0x4 false false 0 0 d
  | .rdkind => hostCode 0x5 false false 0 0 0
  | .rdparam => hostCode 0x6 false false 0 0 0
  | .rdcmd => hostCode 0x7 false false 0 0 0
  | .query c g => hostCode 0x8 false false c g 0
  | .sendm c g => hostCode 0x9 false false c g 0
  | .reservedOpA => hostCode 0xA false false 0 0 0
  | .reservedOpB => hostCode 0xB false false 0 0 0
  | .reservedOpC => hostCode 0xC false false 0 0 0
  | .reservedOpD => hostCode 0xD false false 0 0 0
  | .reservedOpE => hostCode 0xE false false 0 0 0
  | .reservedOpF => hostCode 0xF false false 0 0 0
  | .checksum b1 b2 b3 b4 b5 b6 =>
    .codec .checksum (Frame.toBits
      { header := Config.HDR, version := b1, length := b2, command := b3, ackFlag := b4,
        paramHi := b5, paramLo := b6, cksumHi := hiByte (checksumOf b1 b2 b3 b4 b5 b6),
        cksumLo := loByte (checksumOf b1 b2 b3 b4 b5 b6), endMark := Config.END })
  | .encode c a g => .codec .encode (encodeFrame c a g).toBits
  | .decode f => .codec .decode f.toBits
  | .validate f => .codec .validate f.toBits
  | .rx3aUsbinserted a p k => rxWord 0x3A a p k
  | .rx3aCardinserted a p k => rxWord 0x3A a p k
  | .rx3aNomatch a p k => rxWord 0x3A a p k
  | .rx3bUsbremoved a p k => rxWord 0x3B a p k
  | .rx3bCardremoved a p k => rxWord 0x3B a p k
  | .rx3bNomatch a p k => rxWord 0x3B a p k
  | .rx3cFeedback a p k => rxWord 0x3C a p k
  | .rx3dPlayfinished a p k => rxWord 0x3D a p k
  | .rx3eFeedback a p k => rxWord 0x3E a p k
  | .rx3fUsbonline a p k => rxWord 0x3F a p k
  | .rx3fCardonline a p k => rxWord 0x3F a p k
  | .rx3fNomatch a p k => rxWord 0x3F a p k
  | .rx40Error a p k => rxWord 0x40 a p k
  | .rx41Ack a p k => rxWord 0x41 a p k
  | .rx42Feedback a p k => rxWord 0x42 a p k
  | .rx43Feedback a p k => rxWord 0x43 a p k
  | .rx44Feedback a p k => rxWord 0x44 a p k
  | .rx45Feedback a p k => rxWord 0x45 a p k
  | .rx46Feedback a p k => rxWord 0x46 a p k
  | .rx47Feedback a p k => rxWord 0x47 a p k
  | .rx48Feedback a p k => rxWord 0x48 a p k
  | .rx49Feedback a p k => rxWord 0x49 a p k
  | .rx4bFeedback a p k => rxWord 0x4B a p k
  | .rx4cFeedback a p k => rxWord 0x4C a p k
  | .rx4dFeedback a p k => rxWord 0x4D a p k
  | .rx4eFeedback a p k => rxWord 0x4E a p k
  | .rx4fFeedback a p k => rxWord 0x4F a p k
  | .rxUnlisted001f c a p k => rxWord c a p k
  | .rxUnlisted202f c a p k => rxWord c a p k
  | .rxUnlisted3037 c a p k => rxWord c a p k
  | .rxUnlisted3839 c a p k => rxWord c a p k
  | .rxUnlisted4a a p k => rxWord 0x4A a p k
  | .rxUnlisted505f c a p k => rxWord c a p k
  | .rxUnlisted607f c a p k => rxWord c a p k
  | .rxUnlisted80ff c a p k => rxWord c a p k
  | .txFrame c a g => .txFrame (encodeFrame c (ackByte a) g).toBits
  | .rxstepIdle b => rxByteWord .idle b
  | .rxstepExpectVersion b => rxByteWord .expectVersion b
  | .rxstepExpectLength b => rxByteWord .expectLength b
  | .rxstepExpectCommand b => rxByteWord .expectCommand b
  | .rxstepExpectAck b => rxByteWord .expectAck b
  | .rxstepExpectParamHigh b => rxByteWord .expectParamHigh b
  | .rxstepExpectParamLow b => rxByteWord .expectParamLow b
  | .rxstepExpectChecksumHigh b => rxByteWord .expectChecksumHigh b
  | .rxstepExpectChecksumLow b => rxByteWord .expectChecksumLow b
  | .rxstepExpectEnd b => rxByteWord .expectEnd b

/-- What the decoder reads from a word of the opcode table given as a number of `nbits` bits. 64 bits
are a host word. 80 bits are a received frame: the rows CHECKSUM, ENCODE, DECODE, VALIDATE and
TX_FRAME have the same bit pattern, with no operation code, and their words are read only where the
place they stand in says so (log entry 12). 12 bits, two whole bytes, are a byte step. -/
def decodeTableWord (nbits w : Nat) : Option Instr :=
  if nbits = 64 then (decodeHost (BitVec.ofNat 64 w)).toOption
  else if nbits = 80 then (decodeRxFrame (BitVec.ofNat 80 w)).toOption
  else if (nbits = 12 ∨ nbits = 16) ∧ w < 4096 then (decodeRxByte (BitVec.ofNat 12 w)).toOption
  else none

end Sys2Proof
end

