-- ==== Sys2Proof/Machine/State.lean ====
section
/-! DEFINITION. The state of the machine: the block's record `S` (10_state.md R10), the host port
(30_encoding.md R69), the environment (20_memory.md R40) and the model's own fields; its value after
reset (10_state.md R23). -/

namespace Sys2Proof.Machine

/-- The receive field registers RXF (10_state.md R12). -/
structure RxFields where
  command : Byte
  ackFlag : Byte
  paramHi : Byte
  paramLo : Byte
  cksumHi : Byte
  cksumLo : Byte
  deriving DecidableEq, Repr

/-- The pending transaction (10_state.md R16, R17). With `valid` false the other fields mean nothing. -/
structure Pending where
  valid : Bool
  command : Byte
  argument : U16
  requiresAck : Bool
  sentAt : Time
  /-- A duration, not a point in time (90_conflicts.md C11). -/
  deadline : Time
  deriving DecidableEq, Repr

/-- The latest event, one slot (10_state.md R18). -/
structure LatestEvent where
  kind : EventKind
  parameter : U16
  command : Byte
  available : Bool
  deriving DecidableEq, Repr

/-- The operation a SEND or a WAITEV in progress belongs to: itself one the host started, or INIT or
QUERY (30_encoding.md R72). -/
inductive Owner
  | direct | init | query
  deriving DecidableEq, Repr

/-- The host operation in progress (10_state.md R20), at the grain of the block's own steps
(20_memory.md R50; log entry 7). -/
inductive TmPhase
  /-- No host operation in progress. -/
  | idle
  /-- POLL is inside its receiver poll. -/
  | poll
  /-- SEND with ackRequired found a transaction pending and polls until it resolves
  (43_transaction.md R141). -/
  | sendBlocked (owner : Owner) (command : Byte) (argument : U16)
  /-- SEND has put its frame into TXB; the `TxWrite` comes next (43_transaction.md R142). -/
  | sendWrite (owner : Owner) (ackRequired : Bool) (command : Byte) (argument : U16)
  /-- SEND with ackRequired has written; the pending transaction is recorded next
  (43_transaction.md R145). -/
  | sendRecord (owner : Owner) (command : Byte) (argument : U16)
  /-- SEND without ackRequired wrote at `t0` and waits QUIESCE (43_transaction.md R144). -/
  | sendQuiesce (owner : Owner) (t0 : Time)
  /-- INIT or QUERY is about to enter its WAITEV (44_driver.md R164, R165). -/
  | waitStart (owner : Owner) (maxDuration : Time)
  /-- WAITEV, entered at `t0`, is polling (43_transaction.md R148). -/
  | waitEvent (owner : Owner) (t0 maxDuration : Time)
  /-- INIT sleeps SETTLE_DELAY since `t0`; `arrived` is its WAITEV's result (44_driver.md R164). -/
  | initSettle (arrived : Bool) (t0 : Time)
  deriving DecidableEq, Repr

/-- Where the receiver poll in progress stands (41_receiver.md R102, 44_driver.md R160). The model's
own field. -/
inductive RPoll
  /-- No poll in progress. -/
  | none
  /-- In the loop: a byte step if RXQ holds a byte, else the time-out check. -/
  | draining
  /-- A byte step yielded FrameReady: the frame is classified next. -/
  | frame
  /-- The poll is over: POLL yields `S.ev.available` to the operation it runs in. -/
  | finished
  deriving DecidableEq, Repr

/-- The result of the receiver's poll (30_encoding.md R70). While a poll runs it holds the result so far:
NoData after a byte step that yields `continue`. -/
inductive PollResult
  | noData
  | frameReady (command : Byte) (parameter : U16)
  | malformed (cause : ErrCause)
  | timedOut
  deriving DecidableEq, Repr

/-- The result of a host operation, as it stands on the port (30_encoding.md R69). -/
inductive HostResult
  /-- Nothing has been yielded yet. -/
  | none
  /-- SEND and SENDM return no value. -/
  | void
  /-- INIT, POLL, WAITEV: one bit. -/
  | bit (b : Bool)
  /-- RDKIND: the kind (its 4-bit code is `EventKind.code`). -/
  | kind (k : EventKind)
  /-- RDPARAM: 16 bits. -/
  | parameter (p : U16)
  /-- RDCMD: 8 bits. -/
  | command (c : Byte)
  /-- QUERY: 32 bits, signed. -/
  | query (v : BitVec 32)
  deriving DecidableEq, Repr

/-- What a pure function of the FrameCodec yields (40_framecodec.md R80 to R83). -/
inductive CodecResult
  | none
  | checksum (v : U16)
  | frame (f : Frame)
  | pair (command : Byte) (parameter : U16)
  | valid (b : Bool)
  deriving DecidableEq, Repr

/-- A move of one of the agents (20_memory.md R50). The list of moves to come stands in `State.moves`. -/
inductive Move
  /-- The block takes one of its own steps. -/
  | block
  /-- `EnvRx(b)`: the peripheral appends a byte to RXQ. -/
  | envRx (b : Byte)
  /-- `EnvTick(d)`: the clock advances by d. -/
  | envTick (d : Time)
  /-- The transport loses the byte at this place of RXQ (93_implementation_defined.md U17). -/
  | envDrop (n : Nat)
  /-- The host presents a word at the host operation port (30_encoding.md R69). -/
  | host (h : BitVec 64)
  /-- A pure function is evaluated on ten bytes (40_framecodec.md; log entry 11). -/
  | codec (fn : CodecFn) (f : BitVec 80)
  /-- The reset line (70_reset_and_hazards.md R200). -/
  | reset
  deriving DecidableEq, Repr

/-- The state of the machine. INVENTORY.md names for each field the rule that gives it. -/
structure State where
  /-- S.rxState -/
  rxState : RxState
  /-- S.RXF -/
  rxf : RxFields
  /-- S.TXB -/
  txb : Frame
  /-- S.ackMode -/
  ackMode : Bool
  /-- S.timeoutDuration -/
  timeoutDuration : Time
  /-- S.pending -/
  pending : Pending
  /-- S.ev -/
  ev : LatestEvent
  /-- S.tmPhase -/
  tmPhase : TmPhase
  /-- the position inside the receiver poll (model) -/
  rpoll : RPoll
  /-- the PollResult so far (model, 30_encoding.md R70) -/
  report : PollResult
  /-- port: the word presented last was accepted -/
  accepted : Bool
  /-- port: the result yielded last -/
  result : HostResult
  /-- the value a pure function yielded last -/
  codecResult : CodecResult
  /-- RXQ -/
  rxq : List Byte
  /-- TXLOG -/
  txlog : List Byte
  /-- what Now() reads -/
  clock : Time
  /-- the moves to come (model) -/
  moves : List Move
  /-- how many free draws were made (model) -/
  draws : Nat
  deriving DecidableEq, Repr

/-- The reasons the machine stops with a fault: none. "There is no distinction between recoverable and
fatal errors in this design ... the engine never halts" (60_exceptions.md R180). Log entry 19. -/
inductive Fault
  deriving DecidableEq, Repr

/-- The reasons the machine refuses an instruction. -/
inductive Refusal
  /-- Raised by an arm of `exec` for an instruction that has no meaning yet; safe, since nothing follows
  from a refusal. No arm raises it. -/
  | notModelled (mnemonic : String)
  deriving DecidableEq, Repr

/-- The machine right after power-up (10_state.md R23, 70_reset_and_hazards.md R200). Fields the spec
leaves unspecified hold the values of log entries 1, 2 and 3. -/
def State.reset : State where
  rxState := .idle
  rxf := { command := 0, ackFlag := 0, paramHi := 0, paramLo := 0, cksumHi := 0, cksumLo := 0 }
  txb := { header := 0, version := 0, length := 0, command := 0, ackFlag := 0, paramHi := 0,
           paramLo := 0, cksumHi := 0, cksumLo := 0, endMark := 0 }
  ackMode := false
  timeoutDuration := Config.TIMEOUT_DEFAULT
  pending := { valid := false, command := 0, argument := 0, requiresAck := false, sentAt := 0,
               deadline := 0 }
  ev := { kind := .playFinished, parameter := 0, command := 0, available := false }
  tmPhase := .idle
  rpoll := .none
  report := .noData
  accepted := false
  result := .none
  codecResult := .none
  rxq := []
  txlog := []
  clock := 0
  moves := []
  draws := 0

end Sys2Proof.Machine
end

