-- ==== Sys2Proof/Machine/Flags.lean ====
section
/-! DEFINITION. The three one-bit flags (10_state.md R21), the status outputs (R24) and the numeric codes
of the port (10_state.md R19, 30_encoding.md R70). -/

namespace Sys2Proof

/-- The code of an event kind (10_state.md R19). -/
def EventKind.code : EventKind → BitVec 4
  | .playFinished => 0 | .usbOnline => 1 | .cardOnline => 2 | .cardUsbOnline => 3
  | .usbInserted => 4 | .cardInserted => 5 | .usbRemoved => 6 | .cardRemoved => 7
  | .error => 8 | .feedBack => 9 | .wrongStack => 10 | .timeOut => 11

namespace Machine

/-- The tag of a poll result (30_encoding.md R70). -/
def PollResult.tag : PollResult → BitVec 2
  | .noData => 0 | .frameReady .. => 1 | .malformed _ => 2 | .timedOut => 3

/-- `S.ev.available <- 0`: what every read operation does (10_state.md R21, 44_driver.md R161 to R163),
and all the return an error has (60_exceptions.md R186). -/
def clearAvailable (s : State) : State := { s with ev := { s.ev with available := false } }

/-- `S.pending.valid <- 0`, the other fields kept (10_state.md R17 (c), 42_classifier.md R135). -/
def clearPending (s : State) : State := { s with pending := { s.pending with valid := false } }

/-- `S.ackMode <- a`, INIT's alone (10_state.md R14, R21). -/
def setAckMode (a : Bool) (s : State) : State := { s with ackMode := a }

/-- Output ev_available (10_state.md R24). -/
def evAvailable (s : State) : Bool := s.ev.available

/-- Output tx_pending (10_state.md R24). -/
def txPending (s : State) : Bool := s.pending.valid

/-- Output busy (10_state.md R24). -/
def busy (s : State) : Bool := s.tmPhase != .idle

/-- Output rx_state[3:0] (10_state.md R24, R11). -/
def rxStateOut (s : State) : BitVec 4 := s.rxState.code

end Machine

end Sys2Proof
end

