-- ==== Sys2Proof/Machine/Ops.lean ====
section
/-! DEFINITION. The shared operations: the transport and time primitives, taking a FrameError, the port,
the phases of SEND, WAITEV, INIT and QUERY. -/

namespace Sys2Proof.Machine

/-! ### Transport (20_memory.md R40 to R43) -/

/-- `RxAvail()` (20_memory.md R41). -/
def rxAvail (s : State) : Bool := !s.rxq.isEmpty

/-- `RxRead()` (20_memory.md R42): the head of RXQ and the state without it; none where RxAvail() is
false and the block may not call it. -/
def rxRead (s : State) : Option (Byte × State) :=
  match s.rxq with
  | [] => none
  | b :: q => some (b, { s with rxq := q })

/-- `TxWrite(f)` (20_memory.md R43): the ten bytes, in index order, in one step. -/
def txWrite (f : Frame) (s : State) : State := { s with txlog := s.txlog ++ f.bytes }

/-! ### Time (60_exceptions.md R190, R191, 43_transaction.md R152) -/

/-- `Now()`. -/
def now (s : State) : Time := s.clock

/-- `(Now() - t) mod 2^W_TIME` (43_transaction.md R152). -/
def elapsed (t : Time) (s : State) : Time := now s - t

/-- `(Now() - t) mod 2^W_TIME >= d`, the one comparison of the block (43_transaction.md R152). -/
def hasElapsed (t d : Time) (s : State) : Bool := decide (d ≤ elapsed t s)

/-- `TimeoutDue()` (41_receiver.md R104). -/
def timeoutDue (s : State) : Bool :=
  s.pending.valid && s.pending.requiresAck && hasElapsed s.pending.sentAt s.pending.deadline s

/-! ### Events and errors (42_classifier.md R134 to R138, 60_exceptions.md R184) -/

/-- The event of a classified frame (42_classifier.md R134). -/
def storeEvent (k : EventKind) (p : U16) (c : Byte) (s : State) : State :=
  { s with ev := { kind := k, parameter := p, command := c, available := true } }

/-- The kind under which an error is stored (60_exceptions.md R180). -/
def errKind : ErrCause → EventKind
  | .timedOut => .timeOut
  | _ => .wrongStack

/-- The poll result of an error (60_exceptions.md R180, 30_encoding.md R70). -/
def errReport : ErrCause → PollResult
  | .timedOut => .timedOut
  | c => .malformed c

/-- TAKING A FrameError, complete in one step (60_exceptions.md R184, 42_classifier.md R136, R138): the
poll result becomes the error; MalformedStack puts the receiver in Idle, TimedOut clears the pending
transaction; the event slot is overwritten with the marker kind, ERR_PARAM(cause) and
`available = 1`. The command field is written only when a whole frame carried one (R136). Nothing is
saved. -/
def takeFrameError (cause : ErrCause) (frameCommand : Option Byte) (s : State) : State :=
  { s with
    report := errReport cause
    rxState := if cause = .timedOut then s.rxState else .idle
    pending := if cause = .timedOut then { s.pending with valid := false } else s.pending
    ev := { kind := errKind cause, parameter := Config.ERR_PARAM cause,
            command := frameCommand.getD s.ev.command, available := true } }

/-! ### The host port (30_encoding.md R69, 60_exceptions.md R189) -/

/-- A word that is not accepted: no state change, no result (30_encoding.md R69,
93_implementation_defined.md U9). Only the port says so. -/
def notAccepted (s : State) : State := { s with accepted := false }

/-- A host operation: accepted when no other is in progress, else not (30_encoding.md R69,
60_exceptions.md R189). -/
def whenIdle (effect : State → State) (s : State) : State :=
  if s.tmPhase = .idle then effect { s with accepted := true } else notAccepted s

/-- An operation that is over within its one step yields `r` (00_scope.md R8 "Results"). -/
def yieldResult (r : HostResult) (s : State) : State := { s with result := r }

/-- The host operation in progress yields `r` and is over. -/
def finish (r : HostResult) (s : State) : State :=
  { s with tmPhase := .idle, rpoll := .none, result := r }

/-! ### Polls (41_receiver.md R102, 44_driver.md R160) -/

/-- A receiver poll begins. -/
def beginPoll (s : State) : State := { s with rpoll := .draining, report := .noData }

/-- RXQ was found empty: the time-out check, which ends the poll (41_receiver.md R102, R104). -/
def timeoutCheck (s : State) : State :=
  if timeoutDue s then { takeFrameError .timedOut none s with rpoll := .finished }
  else { s with report := .noData, rpoll := .finished }

/-! ### SEND (43_transaction.md R140 to R145) -/

/-- Phase 2, first half: TXB takes the encoded frame (43_transaction.md R142). -/
def beginWrite (o : Owner) (ackRequired : Bool) (c : Byte) (g : U16) (s : State) : State :=
  { s with txb := encodeFrame c (ackByte ackRequired) g, tmPhase := .sendWrite o ackRequired c g,
           rpoll := .none }

/-- SEND on behalf of `o` (43_transaction.md R140): phase 1, the blocking rule R141, is entered only with
ackRequired and a transaction pending; else phase 2 begins. -/
def startSend (o : Owner) (c : Byte) (g : U16) (ackRequired : Bool) (s : State) : State :=
  if ackRequired && s.pending.valid then beginPoll { s with tmPhase := .sendBlocked o c g }
  else beginWrite o ackRequired c g s

/-- Phase 3a: the six fields of the pending transaction, sentAt read after the write
(43_transaction.md R145). -/
def recordPending (c : Byte) (g : U16) (s : State) : State :=
  { s with pending := { valid := true, command := c, argument := g, requiresAck := true,
                        sentAt := now s, deadline := s.timeoutDuration } }

/-- What follows the write (43_transaction.md R143, R144): with ackRequired the record, else the
quiescence delay from the time of the write. -/
def afterWrite (s : State) : State :=
  match s.tmPhase with
  | .sendWrite o true c g => { s with tmPhase := .sendRecord o c g }
  | .sendWrite o false _ _ => { s with tmPhase := .sendQuiesce o (now s) }
  | _ => s

/-- SEND returns to its owner: to the host (43_transaction.md R140), or to the WAITEV of INIT
(44_driver.md R164) or QUERY (R165). -/
def sendReturn (o : Owner) (s : State) : State :=
  match o with
  | .direct => finish .void s
  | .init => { s with tmPhase := .waitStart .init Config.RESET_WAIT }
  | .query => { s with tmPhase := .waitStart .query Config.TIMEOUT_DEFAULT }

/-! ### WAITEV (43_transaction.md R148), INIT (44_driver.md R164), QUERY (R165) -/

/-- WAITEV is entered: `t0 = Now()`, then the first poll (43_transaction.md R148). -/
def startWait (o : Owner) (maxDuration : Time) (s : State) : State :=
  beginPoll { s with tmPhase := .waitEvent o (now s) maxDuration }

/-- The end of INIT (44_driver.md R164): RDKIND, then success iff ACK mode is off or an event arrived and
is CardOnline or USBOnline. -/
def finishInit (arrived : Bool) (s : State) : State :=
  finish (.bit (!s.ackMode || (arrived && (s.ev.kind == .cardOnline || s.ev.kind == .usbOnline))))
    (clearAvailable s)

/-- The end of QUERY (44_driver.md R165): -1 without a read when nothing arrived, else RDKIND and the
parameter if it is FeedBack, -1 if not. -/
def finishQuery (arrived : Bool) (s : State) : State :=
  if arrived then
    finish (.query (if s.ev.kind = .feedBack then zext32 s.ev.parameter else -1)) (clearAvailable s)
  else finish (.query (-1)) s

/-- WAITEV yields `arrived` to its owner. -/
def waitReturn (o : Owner) (arrived : Bool) (s : State) : State :=
  match o with
  | .direct => finish (.bit arrived) s
  | .init => { s with tmPhase := .initSettle arrived (now s), rpoll := .none }
  | .query => finishQuery arrived s

/-- POLL has ended and yields `S.ev.available` to the operation it runs in (44_driver.md R160): to the
host; to the loop test of a blocked SEND (43_transaction.md R141); to WAITEV, which tests the flag and
then the clock (R148). -/
def pollReturn (s : State) : State :=
  match s.tmPhase with
  | .poll => finish (.bit s.ev.available) s
  | .sendBlocked o c g => if s.pending.valid then beginPoll s else beginWrite o true c g s
  | .waitEvent o t0 maxDuration =>
    if s.ev.available then waitReturn o true s
    else if hasElapsed t0 maxDuration s then waitReturn o false s
    else beginPoll s
  | _ => { s with rpoll := .none }

/-- One step of the operation in progress outside a poll. -/
def phaseStep (s : State) : State :=
  match s.tmPhase with
  | .idle => s
  | .poll => beginPoll s
  | .sendBlocked .. => beginPoll s
  | .sendWrite .. => afterWrite (txWrite s.txb s)
  | .sendRecord o c g => sendReturn o (recordPending c g s)
  | .sendQuiesce o t0 => if hasElapsed t0 Config.QUIESCE s then sendReturn o s else s
  | .waitStart o maxDuration => startWait o maxDuration s
  | .waitEvent .. => beginPoll s
  | .initSettle arrived t0 => if hasElapsed t0 Config.SETTLE_DELAY s then finishInit arrived s else s

/-- One step of the block that runs no instruction of the table. -/
def ownStep (s : State) : State :=
  match s.rpoll with
  | .none => phaseStep s
  | .draining => timeoutCheck s
  | .frame => { s with rpoll := .finished }
  | .finished => pollReturn s

/-! ### Hardware reset (70_reset_and_hazards.md R200, R201) -/

/-- The reset line: every field of `S` at the value of 10_state.md R23, an operation in progress
abandoned, what R23 leaves unspecified drawn freely (log entry 5); RXQ, the clock and the moves to come
are not touched (R201). TXLOG is kept too. DESIGN CHOICE, unsafe (log entry 24): R23 says of it only "empty
as far as this instance wrote". -/
def hardReset (s : State) : State :=
  let n := s.draws
  { s with
    rxState := .idle
    rxf := { command := Config.freeByte n 0, ackFlag := Config.freeByte n 1,
             paramHi := Config.freeByte n 2, paramLo := Config.freeByte n 3,
             cksumHi := Config.freeByte n 4, cksumLo := Config.freeByte n 5 }
    txb := { header := Config.freeByte n 6, version := Config.freeByte n 7,
             length := Config.freeByte n 8, command := Config.freeByte n 9,
             ackFlag := Config.freeByte n 10, paramHi := Config.freeByte n 11,
             paramLo := Config.freeByte n 12, cksumHi := Config.freeByte n 13,
             cksumLo := Config.freeByte n 14, endMark := Config.freeByte n 15 }
    ackMode := false
    timeoutDuration := Config.TIMEOUT_DEFAULT
    pending := { valid := false, command := Config.freeByte n 16, argument := Config.freeU16 n 0,
                 requiresAck := Config.freeBool n 0, sentAt := Config.freeTime n 0,
                 deadline := Config.freeTime n 1 }
    ev := { kind := Config.freeKind n 0, parameter := Config.freeU16 n 1,
            command := Config.freeByte n 17, available := false }
    tmPhase := .idle
    rpoll := .none
    report := .noData
    accepted := false
    result := .none
    codecResult := .none
    draws := n + 1 }

end Sys2Proof.Machine
end

