-- ==== Sys2Proof/Machine/Classifier.lean ====
section
/-! DEFINITION. CLASSIFY (42_classifier.md R110 to R133), what each outcome writes (R134 to R138), and the
received frames as instructions, one for each row of the table. -/

namespace Sys2Proof.Machine

/-- The four outcomes of CLASSIFY (42_classifier.md R110). -/
inductive ClassOutcome
  | event (k : EventKind)
  | ack
  | noMatch
  | fail
  deriving DecidableEq, Repr

/-- Storage inserted, 0x3A (42_classifier.md R111): bit 0 before bit 1 (R133). -/
def classify3a (p : U16) : ClassOutcome :=
  if p.getLsbD 0 then .event .usbInserted
  else if p.getLsbD 1 then .event .cardInserted else .noMatch

/-- Storage removed, 0x3B (42_classifier.md R112). -/
def classify3b (p : U16) : ClassOutcome :=
  if p.getLsbD 0 then .event .usbRemoved
  else if p.getLsbD 1 then .event .cardRemoved else .noMatch

/-- Peripheral online, 0x3F (42_classifier.md R116). The third test, "both", is made last and cannot
succeed (90_conflicts.md C4). -/
def classify3f (p : U16) : ClassOutcome :=
  if p.getLsbD 0 then .event .usbOnline
  else if p.getLsbD 1 then .event .cardOnline
  else if p.getLsbD 0 && p.getLsbD 1 then .event .cardUsbOnline else .noMatch

/-- The commands whose every parameter gives FeedBack (42_classifier.md R113, R115, R119 to R131). -/
def feedBackCommands : List Byte :=
  [0x3C, 0x3E, 0x42, 0x43, 0x44, 0x45, 0x46, 0x47, 0x48, 0x49, 0x4B, 0x4C, 0x4D, 0x4E, 0x4F]

/-- CLASSIFY(command, parameter) (42_classifier.md R110). -/
def classify (c : Byte) (p : U16) : ClassOutcome :=
  if c = Config.CMD_ACK then .ack
  else if c = 0x3A then classify3a p
  else if c = 0x3B then classify3b p
  else if c = 0x3D then .event .playFinished
  else if c = 0x3F then classify3f p
  else if c = 0x40 then .event .error
  else if c ∈ feedBackCommands then .event .feedBack
  else .fail

/-- What an outcome writes (42_classifier.md R134 Event, R135 Ack, R136 Fail, R137 NoMatch). -/
def applyOutcome (o : ClassOutcome) (c : Byte) (p : U16) (s : State) : State :=
  match o with
  | .event k => storeEvent k p c s
  | .ack => clearPending s
  | .noMatch => s
  | .fail => takeFrameError .unlistedCommand (some c) s

/-- The reception of a frame with the fixed constants and these variable bytes, as a poll sees it
(44_driver.md R160): if the checksum field holds (40_framecodec.md R83) outcome `o` is applied, else
the frame is MalformedStack with cause BadChecksum (41_receiver.md R100, 42_classifier.md R138). -/
def receiveFrame (o : ClassOutcome) (c a : Byte) (p k : U16) (s : State) : State :=
  if k = frameChecksum c a p then applyOutcome o c p s
  else takeFrameError .badChecksum none s

/-- Command 0x3A: Event(USBInserted): parameter bit 0 = 1 (bit 1 any) (42_classifier.md R111). -/
def execRx3aUsbinserted (ackFlag : Byte) (parameter cksum : U16) (s : State) :
    Host.Outcome State Fault Refusal :=
  .next (receiveFrame (.event .usbInserted) 0x3A ackFlag parameter cksum s)

/-- Command 0x3A: Event(CardInserted): parameter bit 0 = 0, bit 1 = 1 (42_classifier.md R111). -/
def execRx3aCardinserted (ackFlag : Byte) (parameter cksum : U16) (s : State) :
    Host.Outcome State Fault Refusal :=
  .next (receiveFrame (.event .cardInserted) 0x3A ackFlag parameter cksum s)

/-- Command 0x3A: NoMatch: parameter bits 1:0 = 00 (42_classifier.md R137). -/
def execRx3aNomatch (ackFlag : Byte) (parameter cksum : U16) (s : State) :
    Host.Outcome State Fault Refusal :=
  .next (receiveFrame .noMatch 0x3A ackFlag parameter cksum s)

/-- Command 0x3B: Event(USBRemoved): parameter bit 0 = 1 (bit 1 any) (42_classifier.md R112). -/
def execRx3bUsbremoved (ackFlag : Byte) (parameter cksum : U16) (s : State) :
    Host.Outcome State Fault Refusal :=
  .next (receiveFrame (.event .usbRemoved) 0x3B ackFlag parameter cksum s)

/-- Command 0x3B: Event(CardRemoved): parameter bit 0 = 0, bit 1 = 1 (42_classifier.md R112). -/
def execRx3bCardremoved (ackFlag : Byte) (parameter cksum : U16) (s : State) :
    Host.Outcome State Fault Refusal :=
  .next (receiveFrame (.event .cardRemoved) 0x3B ackFlag parameter cksum s)

/-- Command 0x3B: NoMatch: parameter bits 1:0 = 00 (42_classifier.md R137). -/
def execRx3bNomatch (ackFlag : Byte) (parameter cksum : U16) (s : State) :
    Host.Outcome State Fault Refusal :=
  .next (receiveFrame .noMatch 0x3B ackFlag parameter cksum s)

/-- Command 0x3C: Event(FeedBack) (42_classifier.md R113). -/
def execRx3cFeedback (ackFlag : Byte) (parameter cksum : U16) (s : State) :
    Host.Outcome State Fault Refusal :=
  .next (receiveFrame (.event .feedBack) 0x3C ackFlag parameter cksum s)

/-- Command 0x3D: Event(PlayFinished) (42_classifier.md R114). -/
def execRx3dPlayfinished (ackFlag : Byte) (parameter cksum : U16) (s : State) :
    Host.Outcome State Fault Refusal :=
  .next (receiveFrame (.event .playFinished) 0x3D ackFlag parameter cksum s)

/-- Command 0x3E: Event(FeedBack) (42_classifier.md R115). -/
def execRx3eFeedback (ackFlag : Byte) (parameter cksum : U16) (s : State) :
    Host.Outcome State Fault Refusal :=
  .next (receiveFrame (.event .feedBack) 0x3E ackFlag parameter cksum s)

/-- Command 0x3F: Event(USBOnline): parameter bit 0 = 1, bit 1 any (42_classifier.md R116). -/
def execRx3fUsbonline (ackFlag : Byte) (parameter cksum : U16) (s : State) :
    Host.Outcome State Fault Refusal :=
  .next (receiveFrame (.event .usbOnline) 0x3F ackFlag parameter cksum s)

/-- Command 0x3F: Event(CardOnline): parameter bit 0 = 0, bit 1 = 1 (42_classifier.md R116). -/
def execRx3fCardonline (ackFlag : Byte) (parameter cksum : U16) (s : State) :
    Host.Outcome State Fault Refusal :=
  .next (receiveFrame (.event .cardOnline) 0x3F ackFlag parameter cksum s)

/-- Command 0x3F: NoMatch: parameter bits 1:0 = 00 (42_classifier.md R137). -/
def execRx3fNomatch (ackFlag : Byte) (parameter cksum : U16) (s : State) :
    Host.Outcome State Fault Refusal :=
  .next (receiveFrame .noMatch 0x3F ackFlag parameter cksum s)

/-- Command 0x40: Event(Error) (42_classifier.md R117). -/
def execRx40Error (ackFlag : Byte) (parameter cksum : U16) (s : State) :
    Host.Outcome State Fault Refusal :=
  .next (receiveFrame (.event .error) 0x40 ackFlag parameter cksum s)

/-- Command 0x41: Ack: clears the pending transaction, no event (rule R135) (42_classifier.md R118). -/
def execRx41Ack (ackFlag : Byte) (parameter cksum : U16) (s : State) :
    Host.Outcome State Fault Refusal :=
  .next (receiveFrame .ack 0x41 ackFlag parameter cksum s)

/-- Command 0x42: Event(FeedBack) (42_classifier.md R119). -/
def execRx42Feedback (ackFlag : Byte) (parameter cksum : U16) (s : State) :
    Host.Outcome State Fault Refusal :=
  .next (receiveFrame (.event .feedBack) 0x42 ackFlag parameter cksum s)

/-- Command 0x43: Event(FeedBack) (42_classifier.md R120). -/
def execRx43Feedback (ackFlag : Byte) (parameter cksum : U16) (s : State) :
    Host.Outcome State Fault Refusal :=
  .next (receiveFrame (.event .feedBack) 0x43 ackFlag parameter cksum s)

/-- Command 0x44: Event(FeedBack) (42_classifier.md R121). -/
def execRx44Feedback (ackFlag : Byte) (parameter cksum : U16) (s : State) :
    Host.Outcome State Fault Refusal :=
  .next (receiveFrame (.event .feedBack) 0x44 ackFlag parameter cksum s)

/-- Command 0x45: Event(FeedBack) (42_classifier.md R122). -/
def execRx45Feedback (ackFlag : Byte) (parameter cksum : U16) (s : State) :
    Host.Outcome State Fault Refusal :=
  .next (receiveFrame (.event .feedBack) 0x45 ackFlag parameter cksum s)

/-- Command 0x46: Event(FeedBack) (42_classifier.md R123). -/
def execRx46Feedback (ackFlag : Byte) (parameter cksum : U16) (s : State) :
    Host.Outcome State Fault Refusal :=
  .next (receiveFrame (.event .feedBack) 0x46 ackFlag parameter cksum s)

/-- Command 0x47: Event(FeedBack) (42_classifier.md R124). -/
def execRx47Feedback (ackFlag : Byte) (parameter cksum : U16) (s : State) :
    Host.Outcome State Fault Refusal :=
  .next (receiveFrame (.event .feedBack) 0x47 ackFlag parameter cksum s)

/-- Command 0x48: Event(FeedBack) (42_classifier.md R125). -/
def execRx48Feedback (ackFlag : Byte) (parameter cksum : U16) (s : State) :
    Host.Outcome State Fault Refusal :=
  .next (receiveFrame (.event .feedBack) 0x48 ackFlag parameter cksum s)

/-- Command 0x49: Event(FeedBack) (42_classifier.md R126). -/
def execRx49Feedback (ackFlag : Byte) (parameter cksum : U16) (s : State) :
    Host.Outcome State Fault Refusal :=
  .next (receiveFrame (.event .feedBack) 0x49 ackFlag parameter cksum s)

/-- Command 0x4B: Event(FeedBack) (42_classifier.md R127). -/
def execRx4bFeedback (ackFlag : Byte) (parameter cksum : U16) (s : State) :
    Host.Outcome State Fault Refusal :=
  .next (receiveFrame (.event .feedBack) 0x4B ackFlag parameter cksum s)

/-- Command 0x4C: Event(FeedBack) (42_classifier.md R128). -/
def execRx4cFeedback (ackFlag : Byte) (parameter cksum : U16) (s : State) :
    Host.Outcome State Fault Refusal :=
  .next (receiveFrame (.event .feedBack) 0x4C ackFlag parameter cksum s)

/-- Command 0x4D: Event(FeedBack) (42_classifier.md R129). -/
def execRx4dFeedback (ackFlag : Byte) (parameter cksum : U16) (s : State) :
    Host.Outcome State Fault Refusal :=
  .next (receiveFrame (.event .feedBack) 0x4D ackFlag parameter cksum s)

/-- Command 0x4E: Event(FeedBack) (42_classifier.md R130). -/
def execRx4eFeedback (ackFlag : Byte) (parameter cksum : U16) (s : State) :
    Host.Outcome State Fault Refusal :=
  .next (receiveFrame (.event .feedBack) 0x4E ackFlag parameter cksum s)

/-- Command 0x4F: Event(FeedBack) (42_classifier.md R131). -/
def execRx4fFeedback (ackFlag : Byte) (parameter cksum : U16) (s : State) :
    Host.Outcome State Fault Refusal :=
  .next (receiveFrame (.event .feedBack) 0x4F ackFlag parameter cksum s)

/-- Unlisted command 0x00 to 0x1F (42_classifier.md R132, R136). -/
def execRxUnlisted001f (command ackFlag : Byte) (parameter cksum : U16) (s : State) :
    Host.Outcome State Fault Refusal :=
  .next (receiveFrame .fail command ackFlag parameter cksum s)

/-- Unlisted command 0x20 to 0x2F (42_classifier.md R132, R136). -/
def execRxUnlisted202f (command ackFlag : Byte) (parameter cksum : U16) (s : State) :
    Host.Outcome State Fault Refusal :=
  .next (receiveFrame .fail command ackFlag parameter cksum s)

/-- Unlisted command 0x30 to 0x37 (42_classifier.md R132, R136). -/
def execRxUnlisted3037 (command ackFlag : Byte) (parameter cksum : U16) (s : State) :
    Host.Outcome State Fault Refusal :=
  .next (receiveFrame .fail command ackFlag parameter cksum s)

/-- Unlisted command 0x38 to 0x39 (42_classifier.md R132, R136). -/
def execRxUnlisted3839 (command ackFlag : Byte) (parameter cksum : U16) (s : State) :
    Host.Outcome State Fault Refusal :=
  .next (receiveFrame .fail command ackFlag parameter cksum s)

/-- Unlisted command 0x4A (42_classifier.md R132, R136). -/
def execRxUnlisted4a (ackFlag : Byte) (parameter cksum : U16) (s : State) :
    Host.Outcome State Fault Refusal :=
  .next (receiveFrame .fail 0x4A ackFlag parameter cksum s)

/-- Unlisted command 0x50 to 0x5F (42_classifier.md R132, R136). -/
def execRxUnlisted505f (command ackFlag : Byte) (parameter cksum : U16) (s : State) :
    Host.Outcome State Fault Refusal :=
  .next (receiveFrame .fail command ackFlag parameter cksum s)

/-- Unlisted command 0x60 to 0x7F (42_classifier.md R132, R136). -/
def execRxUnlisted607f (command ackFlag : Byte) (parameter cksum : U16) (s : State) :
    Host.Outcome State Fault Refusal :=
  .next (receiveFrame .fail command ackFlag parameter cksum s)

/-- Unlisted command 0x80 to 0xFF (42_classifier.md R132, R136). -/
def execRxUnlisted80ff (command ackFlag : Byte) (parameter cksum : U16) (s : State) :
    Host.Outcome State Fault Refusal :=
  .next (receiveFrame .fail command ackFlag parameter cksum s)

end Sys2Proof.Machine
end

