-- ==== Sys2Proof/Machine/Driver.lean ====
section
/-! DEFINITION. The Driver's operations (44_driver.md). -/

namespace Sys2Proof.Machine

/-- POLL (44_driver.md R160): the receiver poll begins; its byte steps, the classification or the
time-out check, and the result are the block's next steps. -/
def execPoll (s : State) : Host.Outcome State Fault Refusal :=
  .next (whenIdle (fun s => beginPoll { s with tmPhase := .poll }) s)

/-- RDKIND (44_driver.md R161). -/
def execRdkind (s : State) : Host.Outcome State Fault Refusal :=
  .next (whenIdle (fun s => yieldResult (.kind s.ev.kind) (clearAvailable s)) s)

/-- RDPARAM (44_driver.md R162). -/
def execRdparam (s : State) : Host.Outcome State Fault Refusal :=
  .next (whenIdle (fun s => yieldResult (.parameter s.ev.parameter) (clearAvailable s)) s)

/-- RDCMD (44_driver.md R163). -/
def execRdcmd (s : State) : Host.Outcome State Fault Refusal :=
  .next (whenIdle (fun s => yieldResult (.command s.ev.command) (clearAvailable s)) s)

/-- INIT(ackMode, performReset) (44_driver.md R164). Without a reset of the peripheral the whole
operation is this step: the kind is assumed, `available` is cleared, the result is success. With one,
the reset command's SEND begins. -/
def execInit (ackMode performReset : Bool) (s : State) : Host.Outcome State Fault Refusal :=
  .next (whenIdle
    (fun s =>
      if performReset then
        startSend .init Config.RESET_CMD Config.RESET_ARG ackMode (setAckMode ackMode s)
      else
        finishInit true
          { setAckMode ackMode s with ev := { s.ev with kind := Config.INIT_ASSUMED_KIND } }) s)

/-- QUERY(command, argument) (44_driver.md R165): its SEND, always with ackRequired, begins. -/
def execQuery (command : Byte) (argument : U16) (s : State) : Host.Outcome State Fault Refusal :=
  .next (whenIdle (startSend .query command argument true) s)

/-- SENDM(command, argument) (44_driver.md R166): SEND with the driver's ACK mode. -/
def execSendm (command : Byte) (argument : U16) (s : State) : Host.Outcome State Fault Refusal :=
  .next (whenIdle (fun s => startSend .direct command argument s.ackMode s) s)

end Sys2Proof.Machine
end

