-- ==== Sys2Proof/Machine/FrameCodec.lean ====
section
/-! DEFINITION. The pure functions of the FrameCodec as instructions: they yield a value and neither read
nor write `S` (40_framecodec.md). -/

namespace Sys2Proof.Machine

/-- CHECKSUM (40_framecodec.md R80). -/
def execChecksum (b1 b2 b3 b4 b5 b6 : Byte) (s : State) : Host.Outcome State Fault Refusal :=
  .next { s with codecResult := .checksum (checksumOf b1 b2 b3 b4 b5 b6) }

/-- ENCODE (40_framecodec.md R81). -/
def execEncode (command ackFlag : Byte) (argument : U16) (s : State) :
    Host.Outcome State Fault Refusal :=
  .next { s with codecResult := .frame (encodeFrame command ackFlag argument) }

/-- DECODE (40_framecodec.md R82). -/
def execDecode (f : Frame) (s : State) : Host.Outcome State Fault Refusal :=
  .next { s with codecResult := .pair (decodeFrame f).1 (decodeFrame f).2 }

/-- VALIDATE (40_framecodec.md R83). -/
def execValidate (f : Frame) (s : State) : Host.Outcome State Fault Refusal :=
  .next { s with codecResult := .valid (validateFrame f) }

end Sys2Proof.Machine
end

