-- ==== Sys2Proof/Machine/HostPort.lean ====
section
/-! DEFINITION. NOP and the reserved operation codes (30_encoding.md R69). -/

namespace Sys2Proof.Machine

/-- NOP: accepted, no effect (30_encoding.md R69). -/
def execNop (s : State) : Host.Outcome State Fault Refusal := .next (whenIdle id s)

/-- Operation code 0xA: "refused: not accepted, no state change" (30_encoding.md R69). -/
def execReservedOpA (s : State) : Host.Outcome State Fault Refusal := .next (notAccepted s)

/-- Operation code 0xB (30_encoding.md R69). -/
def execReservedOpB (s : State) : Host.Outcome State Fault Refusal := .next (notAccepted s)

/-- Operation code 0xC (30_encoding.md R69). -/
def execReservedOpC (s : State) : Host.Outcome State Fault Refusal := .next (notAccepted s)

/-- Operation code 0xD (30_encoding.md R69). -/
def execReservedOpD (s : State) : Host.Outcome State Fault Refusal := .next (notAccepted s)

/-- Operation code 0xE (30_encoding.md R69). -/
def execReservedOpE (s : State) : Host.Outcome State Fault Refusal := .next (notAccepted s)

/-- Operation code 0xF (30_encoding.md R69). -/
def execReservedOpF (s : State) : Host.Outcome State Fault Refusal := .next (notAccepted s)

end Sys2Proof.Machine
end

