-- ==== Sys2Proof/Machine/Receiver.lean ====
section
/-! DEFINITION. The receiver byte steps, one for each position (41_receiver.md R90 to R100). A byte step
writes `S.rxState` and at most one byte of `S.RXF`, and yields its result in `report` (NoData for
`continue`). The byte has been taken from RXQ by the fetch. -/

namespace Sys2Proof.Machine

/-- `S.rxState <- r` with step result `res`. -/
def byteStep (r : RxState) (res : PollResult) (s : State) : State :=
  { s with rxState := r, report := res }

/-- The frame that RXF completes: HDR, VER, LEN, the six bytes, END (10_state.md R12). -/
def assembledFrame (x : RxFields) : Frame :=
  { header := Config.HDR, version := Config.VER, length := Config.LEN, command := x.command,
    ackFlag := x.ackFlag, paramHi := x.paramHi, paramLo := x.paramLo, cksumHi := x.cksumHi,
    cksumLo := x.cksumLo, endMark := Config.END }

/-- Idle (41_receiver.md R91). -/
def execRxstepIdle (b : Byte) (s : State) : Host.Outcome State Fault Refusal :=
  .next (byteStep (if b = Config.HDR then .expectVersion else .idle) .noData s)

/-- ExpectVersion (41_receiver.md R92). -/
def execRxstepExpectVersion (b : Byte) (s : State) : Host.Outcome State Fault Refusal :=
  .next (if b = Config.VER then byteStep .expectLength .noData s
    else byteStep .idle (.malformed .badVersion) s)

/-- ExpectLength (41_receiver.md R93). -/
def execRxstepExpectLength (b : Byte) (s : State) : Host.Outcome State Fault Refusal :=
  .next (if b = Config.LEN then byteStep .expectCommand .noData s
    else byteStep .idle (.malformed .badLength) s)

/-- ExpectCommand (41_receiver.md R94). -/
def execRxstepExpectCommand (b : Byte) (s : State) : Host.Outcome State Fault Refusal :=
  .next (byteStep .expectAck .noData { s with rxf := { s.rxf with command := b } })

/-- ExpectAck (41_receiver.md R95). -/
def execRxstepExpectAck (b : Byte) (s : State) : Host.Outcome State Fault Refusal :=
  .next (byteStep .expectParamHigh .noData { s with rxf := { s.rxf with ackFlag := b } })

/-- ExpectParamHigh (41_receiver.md R96). -/
def execRxstepExpectParamHigh (b : Byte) (s : State) : Host.Outcome State Fault Refusal :=
  .next (byteStep .expectParamLow .noData { s with rxf := { s.rxf with paramHi := b } })

/-- ExpectParamLow (41_receiver.md R97). -/
def execRxstepExpectParamLow (b : Byte) (s : State) : Host.Outcome State Fault Refusal :=
  .next (byteStep .expectChecksumHigh .noData { s with rxf := { s.rxf with paramLo := b } })

/-- ExpectChecksumHigh (41_receiver.md R98). -/
def execRxstepExpectChecksumHigh (b : Byte) (s : State) : Host.Outcome State Fault Refusal :=
  .next (byteStep .expectChecksumLow .noData { s with rxf := { s.rxf with cksumHi := b } })

/-- ExpectChecksumLow (41_receiver.md R99). -/
def execRxstepExpectChecksumLow (b : Byte) (s : State) : Host.Outcome State Fault Refusal :=
  .next (byteStep .expectEnd .noData { s with rxf := { s.rxf with cksumLo := b } })

/-- What ExpectEnd yields on byte `b` (41_receiver.md R100): the end mark is tested first, then the
checksum of the assembled frame. -/
def endResult (x : RxFields) (b : Byte) : PollResult :=
  if b = Config.END then
    if pairU16 x.cksumHi x.cksumLo
        = checksumOf Config.VER Config.LEN x.command x.ackFlag x.paramHi x.paramLo then
      .frameReady x.command (pairU16 x.paramHi x.paramLo)
    else .malformed .badChecksum
  else .malformed .badEnd

/-- ExpectEnd (41_receiver.md R100): Idle in every case. -/
def execRxstepExpectEnd (b : Byte) (s : State) : Host.Outcome State Fault Refusal :=
  .next (byteStep .idle (endResult s.rxf b) s)

end Sys2Proof.Machine
end

