-- ==== Sys2Proof/Machine/Transaction.lean ====
section
/-! DEFINITION. The TransactionManager's operations SEND and WAITEV, and the frame SEND writes
(43_transaction.md). -/

namespace Sys2Proof.Machine

/-- SEND(command, argument, ackRequired) (43_transaction.md R140). The step blocks (R141) or puts the
encoded frame into TXB (R142); the write, the record or the quiescence delay are the block's next
steps. -/
def execSend (command : Byte) (argument : U16) (ackRequired : Bool) (s : State) :
    Host.Outcome State Fault Refusal :=
  .next (whenIdle (startSend .direct command argument ackRequired) s)

/-- WAITEV(maxDuration) (43_transaction.md R148): t0 is read and the first poll begins. -/
def execWaitev (maxDuration : Time) (s : State) : Host.Outcome State Fault Refusal :=
  .next (whenIdle (startWait .direct maxDuration) s)

/-- TX_FRAME: the one `TxWrite` of SEND (43_transaction.md R142, 20_memory.md R43). -/
def execTxFrame (command : Byte) (ackRequired : Bool) (argument : U16) (s : State) :
    Host.Outcome State Fault Refusal :=
  .next (txWrite (encodeFrame command (ackByte ackRequired) argument) s)

end Sys2Proof.Machine
end

