-- ==== Sys2Proof/Machine/Dispatch.lean ====
section
/-! DEFINITION. The dispatch: one arm for each constructor of `Instr`, one direct call of its meaning. -/

namespace Sys2Proof.Machine

def exec (i : Instr) (s : State) : Host.Outcome State Fault Refusal :=
  match i with
  | .nop => Sys2Proof.Machine.execNop s
  | .init a r => Sys2Proof.Machine.execInit a r s
  | .send c g a => Sys2Proof.Machine.execSend c g a s
  | .poll => Sys2Proof.Machine.execPoll s
  | .waitev d => Sys2Proof.Machine.execWaitev d s
  | .rdkind => Sys2Proof.Machine.execRdkind s
  | .rdparam => Sys2Proof.Machine.execRdparam s
  | .rdcmd => Sys2Proof.Machine.execRdcmd s
  | .query c g => Sys2Proof.Machine.execQuery c g s
  | .sendm c g => Sys2Proof.Machine.execSendm c g s
  | .reservedOpA => Sys2Proof.Machine.execReservedOpA s
  | .reservedOpB => Sys2Proof.Machine.execReservedOpB s
  | .reservedOpC => Sys2Proof.Machine.execReservedOpC s
  | .reservedOpD => Sys2Proof.Machine.execReservedOpD s
  | .reservedOpE => Sys2Proof.Machine.execReservedOpE s
  | .reservedOpF => Sys2Proof.Machine.execReservedOpF s
  | .checksum b1 b2 b3 b4 b5 b6 => Sys2Proof.Machine.execChecksum b1 b2 b3 b4 b5 b6 s
  | .encode c a g => Sys2Proof.Machine.execEncode c a g s
  | .decode f => Sys2Proof.Machine.execDecode f s
  | .validate f => Sys2Proof.Machine.execValidate f s
  | .rx3aUsbinserted a p k => Sys2Proof.Machine.execRx3aUsbinserted a p k s
  | .rx3aCardinserted a p k => Sys2Proof.Machine.execRx3aCardinserted a p k s
  | .rx3aNomatch a p k => Sys2Proof.Machine.execRx3aNomatch a p k s
  | .rx3bUsbremoved a p k => Sys2Proof.Machine.execRx3bUsbremoved a p k s
  | .rx3bCardremoved a p k => Sys2Proof.Machine.execRx3bCardremoved a p k s
  | .rx3bNomatch a p k => Sys2Proof.Machine.execRx3bNomatch a p k s
  | .rx3cFeedback a p k => Sys2Proof.Machine.execRx3cFeedback a p k s
  | .rx3dPlayfinished a p k => Sys2Proof.Machine.execRx3dPlayfinished a p k s
  | .rx3eFeedback a p k => Sys2Proof.Machine.execRx3eFeedback a p k s
  | .rx3fUsbonline a p k => Sys2Proof.Machine.execRx3fUsbonline a p k s
  | .rx3fCardonline a p k => Sys2Proof.Machine.execRx3fCardonline a p k s
  | .rx3fNomatch a p k => Sys2Proof.Machine.execRx3fNomatch a p k s
  | .rx40Error a p k => Sys2Proof.Machine.execRx40Error a p k s
  | .rx41Ack a p k => Sys2Proof.Machine.execRx41Ack a p k s
  | .rx42Feedback a p k => Sys2Proof.Machine.execRx42Feedback a p k s
  | .rx43Feedback a p k => Sys2Proof.Machine.execRx43Feedback a p k s
  | .rx44Feedback a p k => Sys2Proof.Machine.execRx44Feedback a p k s
  | .rx45Feedback a p k => Sys2Proof.Machine.execRx45Feedback a p k s
  | .rx46Feedback a p k => Sys2Proof.Machine.execRx46Feedback a p k s
  | .rx47Feedback a p k => Sys2Proof.Machine.execRx47Feedback a p k s
  | .rx48Feedback a p k => Sys2Proof.Machine.execRx48Feedback a p k s
  | .rx49Feedback a p k => Sys2Proof.Machine.execRx49Feedback a p k s
  | .rx4bFeedback a p k => Sys2Proof.Machine.execRx4bFeedback a p k s
  | .rx4cFeedback a p k => Sys2Proof.Machine.execRx4cFeedback a p k s
  | .rx4dFeedback a p k => Sys2Proof.Machine.execRx4dFeedback a p k s
  | .rx4eFeedback a p k => Sys2Proof.Machine.execRx4eFeedback a p k s
  | .rx4fFeedback a p k => Sys2Proof.Machine.execRx4fFeedback a p k s
  | .rxUnlisted001f c a p k => Sys2Proof.Machine.execRxUnlisted001f c a p k s
  | .rxUnlisted202f c a p k => Sys2Proof.Machine.execRxUnlisted202f c a p k s
  | .rxUnlisted3037 c a p k => Sys2Proof.Machine.execRxUnlisted3037 c a p k s
  | .rxUnlisted3839 c a p k => Sys2Proof.Machine.execRxUnlisted3839 c a p k s
  | .rxUnlisted4a a p k => Sys2Proof.Machine.execRxUnlisted4a a p k s
  | .rxUnlisted505f c a p k => Sys2Proof.Machine.execRxUnlisted505f c a p k s
  | .rxUnlisted607f c a p k => Sys2Proof.Machine.execRxUnlisted607f c a p k s
  | .rxUnlisted80ff c a p k => Sys2Proof.Machine.execRxUnlisted80ff c a p k s
  | .txFrame c a g => Sys2Proof.Machine.execTxFrame c a g s
  | .rxstepIdle b => Sys2Proof.Machine.execRxstepIdle b s
  | .rxstepExpectVersion b => Sys2Proof.Machine.execRxstepExpectVersion b s
  | .rxstepExpectLength b => Sys2Proof.Machine.execRxstepExpectLength b s
  | .rxstepExpectCommand b => Sys2Proof.Machine.execRxstepExpectCommand b s
  | .rxstepExpectAck b => Sys2Proof.Machine.execRxstepExpectAck b s
  | .rxstepExpectParamHigh b => Sys2Proof.Machine.execRxstepExpectParamHigh b s
  | .rxstepExpectParamLow b => Sys2Proof.Machine.execRxstepExpectParamLow b s
  | .rxstepExpectChecksumHigh b => Sys2Proof.Machine.execRxstepExpectChecksumHigh b s
  | .rxstepExpectChecksumLow b => Sys2Proof.Machine.execRxstepExpectChecksumLow b s
  | .rxstepExpectEnd b => Sys2Proof.Machine.execRxstepExpectEnd b s

end Sys2Proof.Machine
end

