-- ==== Sys2Proof/Machine/Engine.lean ====
section
/-! DEFINITION. What surrounds the meaning of an instruction in a step: which agent moves, where the next
instruction is fetched, and what the poll or the operation in progress does with its result. -/

namespace Sys2Proof.Machine

/-- The place an instruction is fetched from. -/
inductive Source
  /-- a word the host presents at the host operation port (HOST64) -/
  | port
  /-- ten bytes given to a pure function (FRAME80) -/
  | codec
  /-- the head of RXQ, with the receiver's position (RXBYTE12) -/
  | rxByte
  /-- the assembled frame of RXF, after FrameReady (RXFRAME80) -/
  | rxFrame
  /-- the transmit buffer, in a SEND (TXFRAME80) -/
  | txFrame
  deriving DecidableEq, Repr

/-- The next move, and the state with it taken from the moves to come. With none to come the block
moves. -/
def takeMove (s : State) : Move × State :=
  match s.moves with
  | [] => (.block, s)
  | m :: rest => (m, { s with moves := rest })

/-- The word the block's own next step reads, where it reads one: the receiver's position with the head of
RXQ, which `RxRead` removes (41_receiver.md R90, R102); the assembled frame after FrameReady
(10_state.md R12); the transmit buffer when SEND writes (43_transaction.md R142). -/
def blockWord (s : State) : Option (Source × Code × State) :=
  match s.rpoll with
  | .draining => (rxRead s).map fun (b, s') => (.rxByte, rxByteWord s.rxState b, s')
  | .frame => some (.rxFrame, .rxFrame (assembledFrame s.rxf).toBits, s)
  | .finished => none
  | .none =>
    match s.tmPhase with
    | .sendWrite .. => some (.txFrame, .txFrame s.txb.toBits, s)
    | _ => none

/-- The word the next step reads, with the place it stands in and the state after it is taken; none where
the next move is not the reading of a word. -/
def fetchWord (s : State) : Option (Source × Code × State) :=
  match takeMove s with
  | (.block, s') => blockWord s'
  | (.host h, s') => some (.port, .host h, s')
  | (.codec fn v, s') => some (.codec, .codec fn v, s')
  | _ => none

/-- What follows a byte step inside a poll: nothing, the classification of a frame, or the error, taken at
this step completely (41_receiver.md R102, 60_exceptions.md R184). -/
def afterByte (s : State) : State :=
  match s.report with
  | .frameReady _ _ => { s with rpoll := .frame }
  | .malformed cause => { takeFrameError cause none s with rpoll := .finished }
  | _ => s

/-- What the step adds after the meaning of an instruction fetched from `src`. -/
def commit (src : Source) (s : State) : State :=
  match src with
  | .port => s
  | .codec => s
  | .rxByte => afterByte s
  | .rxFrame => { s with rpoll := .finished }
  | .txFrame => afterWrite s

/-- `f` on the next state of an outcome. -/
def onNext (f : State → State) :
    Host.Outcome State Fault Refusal → Host.Outcome State Fault Refusal
  | .next s => .next (f s)
  | .fault r => .fault r
  | .refused r => .refused r

/-- A move that is no instruction: the environment's (20_memory.md R50), the reset line, a word that does
not decode (93_implementation_defined.md U9), or a step of the block that reads no word. -/
def otherMove (s : State) : State :=
  match takeMove s with
  | (.block, s') => ownStep s'
  | (.envRx b, s') => { s' with rxq := s'.rxq ++ [b] }
  | (.envTick d, s') => { s' with clock := s'.clock + d }
  | (.envDrop n, s') => { s' with rxq := s'.rxq.eraseIdx n }
  | (.host _, s') => notAccepted s'
  | (.codec _ _, s') => s'
  | (.reset, s') => hardReset s'

/-- What the next step does: run an instruction fetched from a place, in a state, or another move. -/
inductive Fetched
  | run (src : Source) (i : Instr) (s : State)
  | other
  deriving DecidableEq, Repr

/-- Fetch and decode. -/
def fetch (s : State) : Fetched :=
  match fetchWord s with
  | none => .other
  | some (src, w, s') =>
    match decode w with
    | .ok i => .run src i s'
    | .error _ => .other

/-- `w` at the port, the host idle: the host presents the word next (30_encoding.md R69). -/
def placeHostWord (s : State) (w : BitVec 64) : State :=
  { s with tmPhase := .idle, moves := .host w :: s.moves }

/-- The frame `v` assembled in RXF inside a POLL that has just seen FrameReady. Its constant bytes stand
in no register: a word without them is no frame and is not placed. -/
def placeRxFrame (s : State) (v : BitVec 80) : State :=
  let f := Frame.ofBits v
  if f.hasConstants then
    { s with
      rxf := { command := f.command, ackFlag := f.ackFlag, paramHi := f.paramHi, paramLo := f.paramLo,
               cksumHi := f.cksumHi, cksumLo := f.cksumLo }
      tmPhase := .poll
      rpoll := .frame
      moves := .block :: s.moves }
  else s

/-- The receiver at a position and a byte at the head of RXQ, inside a POLL. -/
def placeRxByte (s : State) (w : BitVec 12) : State :=
  match RxState.ofCode (w.extractLsb' 8 4) with
  | some r =>
    { s with
      rxState := r
      rxq := w.extractLsb' 0 8 :: s.rxq
      tmPhase := .poll
      rpoll := .draining
      moves := .block :: s.moves }
  | none => s

end Sys2Proof.Machine
end

