-- ==== Sys2Proof/Machine/Step.lean ====
section
/-! DEFINITION. One step of the machine, and how a word comes to be fetched by the next one. -/

namespace Sys2Proof.Machine

/-- One step (20_memory.md R50): one move of one agent. Where it reads a word that decodes, it runs the
instruction's meaning and what the poll or operation in progress does with it. -/
def step (s : State) : Host.Outcome State Fault Refusal :=
  match fetch s with
  | .run src i s' => onNext (commit src) (exec i s')
  | .other => .next (otherMove s)

/-- `s` with a word of the opcode table stored where the next step fetches: 64 bits at the host port, 80
bits as the received frame, 12 bits (two whole bytes) as receiver position and byte. Log entry 6. -/
def State.withFetchWord (s : State) (nbits w : Nat) : State :=
  if nbits = 64 then placeHostWord s (BitVec.ofNat 64 w)
  else if nbits = 80 then placeRxFrame s (BitVec.ofNat 80 w)
  else if (nbits = 12 ∨ nbits = 16) ∧ w < 4096 then placeRxByte s (BitVec.ofNat 12 w)
  else s

end Sys2Proof.Machine
end

