-- ==== Sys2Proof/Safety.lean ====
section
/-! DEFINITION. What a good state is, and the runs of the machine. -/

namespace Sys2Proof.Machine

/-- The operation in progress is one that polls. -/
def TmPhase.polls : TmPhase → Bool
  | .poll | .sendBlocked .. | .waitEvent .. => true
  | _ => false

/-- The consistency of the state that every run keeps. -/
structure Inv (s : State) : Prop where
  /-- 10_state.md R17 (b): whenever `valid` is 1, `requiresAck` is 1. -/
  pending_requiresAck : s.pending.valid = true → s.pending.requiresAck = true
  /-- 41_receiver.md R104: the deadline of a pending transaction equals timeoutDuration. -/
  pending_deadline : s.pending.valid = true → s.pending.deadline = s.timeoutDuration
  /-- 10_state.md R15: timeoutDuration is constant after reset. -/
  timeout_configured : s.timeoutDuration = Config.TIMEOUT_DEFAULT
  /-- A receiver poll runs exactly inside POLL, a blocked SEND and WAITEV (30_encoding.md R70). -/
  poll_inside_operation : s.rpoll ≠ .none ↔ s.tmPhase.polls = true
  /-- A frame waiting to be classified is complete and valid, and the receiver is in Idle
  (41_receiver.md R100). -/
  frame_valid : s.rpoll = .frame →
    s.rxState = .idle ∧ validateFrame (assembledFrame s.rxf) = true ∧
      s.report = .frameReady s.rxf.command (pairU16 s.rxf.paramHi s.rxf.paramLo)
  /-- 43_transaction.md R145, R149: nothing is pending when an acknowledged frame is about to be written. -/
  write_exclusive : ∀ o c g, s.tmPhase = .sendWrite o true c g → s.pending.valid = false
  /-- 43_transaction.md R145: nothing is pending when a transaction is about to be recorded. -/
  record_exclusive : ∀ o c g, s.tmPhase = .sendRecord o c g → s.pending.valid = false
  /-- 43_transaction.md R142: the frame about to be written is the encoded one. -/
  txb_encoded : ∀ o a c g, s.tmPhase = .sendWrite o a c g → s.txb = encodeFrame c (ackByte a) g

/-- At rest: no host operation in progress (70_reset_and_hazards.md R216). -/
def AtRest (s : State) : Prop := s.tmPhase = .idle

/-- The state after the receiver, at the position it stands in, takes the byte `b` (41_receiver.md R90). -/
def feedByte (s : State) (b : Byte) : State :=
  match exec (rxStepRow s.rxState b) s with
  | .next t => t
  | _ => s

/-- The state after the receiver takes the bytes in order. -/
def feed (s : State) (bs : List Byte) : State := bs.foldl feedByte s

/-- What each byte step yields while the receiver takes the bytes in order. -/
def feedReports (s : State) : List Byte → List PollResult
  | [] => []
  | b :: bs => (feedByte s b).report :: feedReports (feedByte s b) bs

/-- Received frame `i` (command `c`, parameter `p`) is classified as event kind `k` and delivered: the four
fields of the event slot are written and nothing else (42_classifier.md R110, R134). -/
def deliversEvent (i : Instr) (k : EventKind) (c : Byte) (p : U16) (s : State) : Prop :=
  classify c p = .event k ∧
    exec i s = .next { s with ev := { kind := k, parameter := p, command := c, available := true } }

/-- Received frame `i` (command `c`, parameter `p`) matches no condition of its command and leaves no trace
(42_classifier.md R137). -/
def dropsFrame (i : Instr) (c : Byte) (p : U16) (s : State) : Prop :=
  classify c p = .noMatch ∧ exec i s = .next s

/-- Received frame `i` (command `c`, parameter `p`) fails classification and is a MalformedStack error with
cause UnlistedCommand, the frame's command in the event slot (42_classifier.md R132, R136). -/
def failsFrame (i : Instr) (c : Byte) (p : U16) (s : State) : Prop :=
  classify c p = .fail ∧
    exec i s = .next
      { s with
        report := .malformed .unlistedCommand
        rxState := .idle
        ev := { kind := .wrongStack, parameter := Config.ERR_PARAM .unlistedCommand, command := c,
                available := true } }

/-- `t` comes after `k` steps from `s`. -/
def runsTo (k : Nat) (s t : State) : Prop := Host.Core.run core k s = .next t

/-! ### Infinite runs and the fairness of the clock (20_memory.md R53, 92_eei_decisions.md D28)

`State.moves` is a finite list. An infinite run is the machine under a schedule, which says for every
number which agent moves then; a schedule is no part of the state (log entry 25). -/

/-- The state after the move `m` is made now, ahead of the moves to come. -/
def makeMove (m : Move) (s : State) : State :=
  match step { s with moves := m :: s.moves } with
  | .next t => t
  | _ => s

/-- The run of the machine from `s` under the schedule `σ`: the state after `n` moves. -/
def runUnder (σ : Nat → Move) (s : State) : Nat → State
  | 0 => s
  | n + 1 => makeMove (σ n) (runUnder σ s n)

/-- By how much a move advances the clock. -/
def Move.ticks : Move → Nat
  | .envTick d => d.toNat
  | _ => 0

/-- The time that passes in the first `n` moves of a schedule, not wrapped. -/
def timePassed (σ : Nat → Move) : Nat → Nat
  | 0 => 0
  | n + 1 => timePassed σ n + (σ n).ticks

/-- THE FAIRNESS ASSUMPTION on `EnvTick` (20_memory.md R53): "in every infinite run the clock grows without
bound". A claim that a duration passes has it as a premise; nothing in the machine grants it. -/
def ClockAdvances (σ : Nat → Move) : Prop := ∀ time, ∃ n, time ≤ timePassed σ n

/-- The schedule in which the clock stands still and the peripheral is silent: the block alone moves
(20_memory.md R53). It is not fair. -/
def blockAlone : Nat → Move := fun _ => .block

end Sys2Proof.Machine
end

