-- ==== Sys2Proof/Certificates/Slice0/Obligations.lean ====
section
/-! DEFINITION. The statements for the provers. Each docstring names the rule of the spec it formalises. -/

open Sys2Proof Sys2Proof.Machine

/-! ### Encoding -/

/-- Decode and encode agree on every well-formed instruction of the table (30_encoding.md R61, R69;
10_state.md R11). -/
def Obligations.DecodeEncodeAgree : Prop :=
  ∀ i : Instr, WellFormed i → decode (encode i) = .ok i

/-- A few words written out in the spec decode to the instructions they stand for: host words of
95_test_vectors.md V74, two received frames of V30, the ExpectAck byte of V17 with the position code of
10_state.md R11, and the frame that V1 has SEND write. -/
def Obligations.SpecWordsDecode : Prop :=
  decode (.host 0x1C00000000000000) = .ok (.init true true) ∧
  decode (.host 0x2803000500000000) = .ok (.send 0x03 0x0005 true) ∧
  decode (.host 0x40000000000003E8) = .ok (.waitev 1000) ∧
  decode (.host 0x3CFFFFFFFFFFFFFF) = .ok .poll ∧
  decode (.host 0x3100000000000000) = .error .nonZeroZeroBits ∧
  decode (.rxFrame 0x7EFF063D000007FEB7EF) = .ok (.rx3dPlayfinished 0x00 0x0007 0xFEB7) ∧
  decode (.rxFrame 0x7EFF063F000002FEBAEF) = .ok (.rx3fCardonline 0x00 0x0002 0xFEBA) ∧
  decode (.rxByte 0x400) = .ok (.rxstepExpectAck 0x00) ∧
  decode (.txFrame 0x7EFF0603000005FEF3EF) = .ok (.txFrame 0x03 false 0x0005)

/-- Every ten bytes with the frame's constants are the word of exactly the row they decode to: the operands
lie in that row's pattern and encode to the same ten bytes (30_encoding.md R61, R65). -/
def Obligations.EveryFrameHasItsRow : Prop :=
  ∀ v : BitVec 80, (Frame.ofBits v).hasConstants = true →
    ∃ i, decode (.rxFrame v) = .ok i ∧ WellFormed i ∧ encode i = .rxFrame v

/-- The fields of a host word (30_encoding.md R69), for every value of every field: operation codes 0xA to
0xF are reserved whatever else the word holds, the `zero` bits must be 0 for the others, and fields an
operation does not use are ignored. -/
def Obligations.HostWordFieldsDecode : Prop :=
  ∀ (op : BitVec 4) (a r : Bool) (z : BitVec 2) (c : Byte) (g : U16) (d : Time),
    decode (.host (op ++ BitVec.ofBool a ++ BitVec.ofBool r ++ z ++ c ++ g ++ d)) =
      if op = 0xA then .ok .reservedOpA
      else if op = 0xB then .ok .reservedOpB
      else if op = 0xC then .ok .reservedOpC
      else if op = 0xD then .ok .reservedOpD
      else if op = 0xE then .ok .reservedOpE
      else if op = 0xF then .ok .reservedOpF
      else if z ≠ 0 then .error .nonZeroZeroBits
      else if op = 0x0 then .ok .nop
      else if op = 0x1 then .ok (.init a r)
      else if op = 0x2 then .ok (.send c g a)
      else if op = 0x3 then .ok .poll
      else if op = 0x4 then .ok (.waitev d)
      else if op = 0x5 then .ok .rdkind
      else if op = 0x6 then .ok .rdparam
      else if op = 0x7 then .ok .rdcmd
      else if op = 0x8 then .ok (.query c g)
      else .ok (.sendm c g)

/-! ### The step -/

/-- A word that the next move reads and that decodes is run: the step is the instruction's meaning, on the
state with the word taken, followed by what the place the word was read from adds (`commit`). The model's
form of a step (log entries 6 and 7). -/
def Obligations.StepRunsDecodedInstruction : Prop :=
  ∀ (s s' : State) (src : Source) (w : Code) (i : Instr),
    fetchWord s = some (src, w, s') → decode w = .ok i →
      step s = onNext (commit src) (exec i s')

/-- Where the next word stands: a word the host presents; ten bytes given to a pure function; inside a poll the
byte at the head of RXQ, which is removed, with the receiver's position (41_receiver.md R90, R102;
20_memory.md R42); after FrameReady the assembled frame (10_state.md R12); in a SEND the transmit buffer
(43_transaction.md R142). The clause of the pure functions is the model's choice: the spec gives them no
port and no place in a program (log entry 11). So are the moves that say which of these comes next (log
entry 6). -/
def Obligations.WhereWordsAreFetched : Prop :=
  ∀ s s' : State,
    (∀ h, takeMove s = (.host h, s') → fetchWord s = some (.port, .host h, s')) ∧
    (∀ fn v, takeMove s = (.codec fn v, s') → fetchWord s = some (.codec, .codec fn v, s')) ∧
    (takeMove s = (.block, s') →
      (∀ b q, s'.rpoll = .draining → s'.rxq = b :: q →
        fetchWord s = some (.rxByte, rxByteWord s'.rxState b, { s' with rxq := q })) ∧
      (s'.rpoll = .frame →
        fetchWord s = some (.rxFrame, .rxFrame (assembledFrame s'.rxf).toBits, s')) ∧
      (∀ o a c g, s'.rpoll = .none → s'.tmPhase = .sendWrite o a c g →
        fetchWord s = some (.txFrame, .txFrame s'.txb.toBits, s')))

/-- "The engine never halts" (60_exceptions.md R180): every instruction, and every step, gives a next
state. -/
def Obligations.EngineNeverHalts : Prop :=
  (∀ (i : Instr) (s : State), ∃ t, exec i s = .next t) ∧ ∀ s : State, ∃ t, step s = .next t

/-! ### FrameCodec -/

/-- CHECKSUM yields the number that brings the sum of its six bytes to 0 modulo 2^16, and changes nothing
else (40_framecodec.md R80). -/
def Obligations.ChecksumNegatesSum : Prop :=
  ∀ (b1 b2 b3 b4 b5 b6 : Byte) (s : State),
    ∃ v : U16, exec (.checksum b1 b2 b3 b4 b5 b6) s = .next { s with codecResult := .checksum v } ∧
      v.toNat =
        (65536 - (b1.toNat + b2.toNat + b3.toNat + b4.toNat + b5.toNat + b6.toNat)) % 65536 ∧
      (b1.toNat + b2.toNat + b3.toNat + b4.toNat + b5.toNat + b6.toNat + v.toNat) % 65536 = 0

/-- ENCODE yields the ten bytes of 40_framecodec.md R81, for every operand, and changes nothing else. -/
def Obligations.EncodeBuildsFrame : Prop :=
  ∀ (c a : Byte) (g : U16) (s : State),
    let hi : Byte := g.extractLsb' 8 8
    let lo : Byte := g.extractLsb' 0 8
    let k : U16 := checksumOf 0xFF 0x06 c a hi lo
    let f : Frame :=
      { header := 0x7E, version := 0xFF, length := 0x06, command := c, ackFlag := a, paramHi := hi,
        paramLo := lo, cksumHi := k.extractLsb' 8 8, cksumLo := k.extractLsb' 0 8, endMark := 0xEF }
    exec (.encode c a g) s = .next { s with codecResult := .frame f }

/-- DECODE yields the command byte and (paramHi << 8) | paramLo of any ten bytes, and changes nothing else
(40_framecodec.md R82). -/
def Obligations.DecodeReadsFields : Prop :=
  ∀ (f : Frame) (s : State),
    exec (.decode f) s = .next
      { s with codecResult := .pair f.command
                 ((f.paramHi.setWidth 16 <<< 8) ||| f.paramLo.setWidth 16) }

/-- VALIDATE yields true exactly when the four constants stand and the checksum field is the CHECKSUM of
bytes 1 to 6, which is the same as the sum with the field cancelling to zero (40_framecodec.md R83). -/
def Obligations.ValidateTestsFrame : Prop :=
  ∀ (f : Frame) (s : State),
    ∃ b : Bool, exec (.validate f) s = .next { s with codecResult := .valid b } ∧
      (b = true ↔ f.header = 0x7E ∧ f.version = 0xFF ∧ f.length = 0x06 ∧ f.endMark = 0xEF ∧
        ((f.cksumHi.setWidth 16 <<< 8) ||| f.cksumLo.setWidth 16) =
          checksumOf f.version f.length f.command f.ackFlag f.paramHi f.paramLo) ∧
      (b = true ↔ f.header = 0x7E ∧ f.version = 0xFF ∧ f.length = 0x06 ∧ f.endMark = 0xEF ∧
        (f.version.toNat + f.length.toNat + f.command.toNat + f.ackFlag.toNat + f.paramHi.toNat +
          f.paramLo.toNat + (256 * f.cksumHi.toNat + f.cksumLo.toNat)) % 65536 = 0)

/-- Round trip (40_framecodec.md R85), with the functions run as instructions. -/
def Obligations.CodecRoundTrip : Prop :=
  ∀ (c a : Byte) (g : U16) (s : State),
    exec (.decode (encodeFrame c a g)) s = .next { s with codecResult := .pair c g } ∧
    exec (.validate (encodeFrame c a g)) s = .next { s with codecResult := .valid true }

/-- The checksum of a valid frame lies between 0xFAFF and 0xFEFB, so its high byte is 0xFA to 0xFE
(40_framecodec.md R84). -/
def Obligations.ValidChecksumRange : Prop :=
  ∀ f : Frame, validateFrame f = true →
    0xFAFF ≤ f.cksum.toNat ∧ f.cksum.toNat ≤ 0xFEFB ∧
      0xFA ≤ f.cksumHi.toNat ∧ f.cksumHi.toNat ≤ 0xFE

/-- A single flipped bit makes a valid frame invalid: in bytes 3 to 8 by the checksum, in bytes 0, 1, 2 and
9 by a constant test (40_framecodec.md R86). Bit k of the 80-bit value (30_encoding.md R61). -/
def Obligations.SingleBitErrorFails : Prop :=
  ∀ (f : Frame) (k : Nat), validateFrame f = true → k < 80 →
    validateFrame (Frame.ofBits (f.toBits ^^^ (1#80 <<< k))) = false

/-! ### Receiver byte steps -/

/-- Idle (41_receiver.md R91), ExpectVersion (R92) and ExpectLength (R93). -/
def Obligations.ConstantByteSteps : Prop :=
  ∀ (b : Byte) (s : State),
    exec (.rxstepIdle b) s = .next
      { s with rxState := if b = 0x7E then .expectVersion else .idle, report := .noData } ∧
    exec (.rxstepExpectVersion b) s = .next
      (if b = 0xFF then { s with rxState := .expectLength, report := .noData }
       else { s with rxState := .idle, report := .malformed .badVersion }) ∧
    exec (.rxstepExpectLength b) s = .next
      (if b = 0x06 then { s with rxState := .expectCommand, report := .noData }
       else { s with rxState := .idle, report := .malformed .badLength })

/-- The six positions that store a byte (41_receiver.md R94 to R99). -/
def Obligations.DataByteSteps : Prop :=
  ∀ (b : Byte) (s : State),
    exec (.rxstepExpectCommand b) s = .next
      { s with rxf := { s.rxf with command := b }, rxState := .expectAck, report := .noData } ∧
    exec (.rxstepExpectAck b) s = .next
      { s with rxf := { s.rxf with ackFlag := b }, rxState := .expectParamHigh, report := .noData } ∧
    exec (.rxstepExpectParamHigh b) s = .next
      { s with rxf := { s.rxf with paramHi := b }, rxState := .expectParamLow, report := .noData } ∧
    exec (.rxstepExpectParamLow b) s = .next
      { s with rxf := { s.rxf with paramLo := b }, rxState := .expectChecksumHigh,
               report := .noData } ∧
    exec (.rxstepExpectChecksumHigh b) s = .next
      { s with rxf := { s.rxf with cksumHi := b }, rxState := .expectChecksumLow,
               report := .noData } ∧
    exec (.rxstepExpectChecksumLow b) s = .next
      { s with rxf := { s.rxf with cksumLo := b }, rxState := .expectEnd, report := .noData }

/-- ExpectEnd (41_receiver.md R100): the end mark is tested first, then the checksum; Idle in every case. -/
def Obligations.EndByteStep : Prop :=
  ∀ (b : Byte) (s : State),
    exec (.rxstepExpectEnd b) s = .next
      { s with
        rxState := .idle
        report :=
          if b ≠ 0xEF then .malformed .badEnd
          else if ((s.rxf.cksumHi.setWidth 16 <<< 8) ||| s.rxf.cksumLo.setWidth 16) ≠
              checksumOf 0xFF 0x06 s.rxf.command s.rxf.ackFlag s.rxf.paramHi s.rxf.paramLo then
            .malformed .badChecksum
          else .frameReady s.rxf.command
            ((s.rxf.paramHi.setWidth 16 <<< 8) ||| s.rxf.paramLo.setWidth 16) }

/-- What a byte step may write (41_receiver.md R90): `rxState`, at most one byte of RXF, and its result,
which is `continue`, FrameReady, or MalformedStack with one of four causes. -/
def Obligations.ByteStepWritesOnlyReceiver : Prop :=
  ∀ (r : RxState) (b : Byte) (s t : State), exec (rxStepRow r b) s = .next t →
    t = { s with rxState := t.rxState, rxf := t.rxf, report := t.report } ∧
    (t.rxf = s.rxf ∨ t.rxf = { s.rxf with command := b } ∨ t.rxf = { s.rxf with ackFlag := b } ∨
      t.rxf = { s.rxf with paramHi := b } ∨ t.rxf = { s.rxf with paramLo := b } ∨
      t.rxf = { s.rxf with cksumHi := b } ∨ t.rxf = { s.rxf with cksumLo := b }) ∧
    (t.report = .noData ∨ (∃ c p, t.report = .frameReady c p) ∨
      t.report = .malformed .badVersion ∨ t.report = .malformed .badLength ∨
      t.report = .malformed .badEnd ∨ t.report = .malformed .badChecksum)

/-- The next-state table as a whole (41_receiver.md R106; 10_state.md R11): the position advances by one or
returns to Idle; every report goes to Idle; a step from a position other than Idle to Idle reports. -/
def Obligations.PositionAdvancesOrReportsIdle : Prop :=
  ∀ (r : RxState) (b : Byte) (s t : State), exec (rxStepRow r b) s = .next t →
    (t.rxState = .idle ∨ t.rxState.code = r.code + 1) ∧
    (t.report ≠ .noData → t.rxState = .idle) ∧
    (r ≠ .idle → t.rxState = .idle → t.report ≠ .noData)

/-- From any position other than Idle the receiver is in Idle again after at most nine more bytes, whatever
they are (41_receiver.md R107). -/
def Obligations.IdleWithinNineBytes : Prop :=
  ∀ (s : State) (bs : List Byte), s.rxState ≠ .idle → bs.length = 9 →
    ∃ k, 1 ≤ k ∧ k ≤ 9 ∧ (feed s (bs.take k)).rxState = .idle

/-- Ten bytes fed to a receiver in Idle end in FrameReady with the frame's command and parameter exactly
when VALIDATE holds of them, and no earlier byte of the ten yields FrameReady (40_framecodec.md R83). -/
def Obligations.TenBytesReadyIffValid : Prop :=
  ∀ (s : State) (f : Frame), s.rxState = .idle →
    ((feed s f.bytes).report = .frameReady f.command f.parameter ↔ validateFrame f = true) ∧
    ∀ k c p, 1 ≤ k → k < 10 → (feed s (f.bytes.take k)).report ≠ .frameReady c p

/-- Noise without a header byte and then a valid frame give exactly one report, FrameReady, at the last
byte (41_receiver.md R107, 95_test_vectors.md V5). -/
def Obligations.NoiseThenFrameReportsOnce : Prop :=
  ∀ (s : State) (noise : List Byte) (f : Frame),
    s.rxState = .idle → (∀ b ∈ noise, b ≠ 0x7E) → validateFrame f = true →
      feedReports s (noise ++ f.bytes) =
        List.replicate (noise.length + 9) .noData ++ [.frameReady f.command f.parameter]

/-! ### Polls and errors -/

/-- An error found by the receiver is taken at the step that finds it, completely (60_exceptions.md R184,
42_classifier.md R138): the byte is consumed and no later one, the receiver is in Idle, the poll is
over, the event slot holds WrongStack with ERR_PARAM(cause) and the command of the frame before. -/
def Obligations.FramingErrorTakenAtItsByte : Prop :=
  ∀ (s s' : State) (b : Byte) (q : List Byte) (e : ErrCause),
    takeMove s = (.block, s') → s'.rpoll = .draining → s'.rxq = b :: q →
    ((s'.rxState = .expectVersion ∧ b ≠ 0xFF ∧ e = .badVersion) ∨
      (s'.rxState = .expectLength ∧ b ≠ 0x06 ∧ e = .badLength) ∨
      (s'.rxState = .expectEnd ∧ b ≠ 0xEF ∧ e = .badEnd) ∨
      (s'.rxState = .expectEnd ∧ b = 0xEF ∧ e = .badChecksum ∧
        pairU16 s'.rxf.cksumHi s'.rxf.cksumLo ≠
          checksumOf 0xFF 0x06 s'.rxf.command s'.rxf.ackFlag s'.rxf.paramHi s'.rxf.paramLo)) →
      step s = .next
        { s' with
          rxq := q, rxState := .idle, report := .malformed e, rpoll := .finished
          ev := { kind := .wrongStack, parameter := Config.ERR_PARAM e, command := s'.ev.command,
                  available := true } }

/-- The time-out check (41_receiver.md R104, 42_classifier.md R138): made when the poll finds RXQ empty
without a report; when due it clears `pending.valid` alone of the transaction, leaves the receiver as
it is and stores TimeOut; when not, the poll ends with NoData. -/
def Obligations.TimeoutCheckedWhenQueueEmpty : Prop :=
  ∀ s s' : State, takeMove s = (.block, s') → s'.rpoll = .draining → s'.rxq = [] →
    step s = .next
      (if s'.pending.valid = true ∧ s'.pending.requiresAck = true ∧
          s'.pending.deadline.toNat ≤ (s'.clock - s'.pending.sentAt).toNat then
        { s' with
          pending := { s'.pending with valid := false }, report := .timedOut, rpoll := .finished
          ev := { kind := .timeOut, parameter := Config.ERR_PARAM .timedOut,
                  command := s'.ev.command, available := true } }
       else { s' with report := .noData, rpoll := .finished })

/-- POLL over a valid frame at the head of RXQ that is an event (44_driver.md R160, 42_classifier.md R134),
as one run of the machine, the block alone moving: the ten bytes are consumed and none after them, the
event slot holds the event, the result is 1. -/
def Obligations.PollDeliversOneFrame : Prop :=
  ∀ (s : State) (f : Frame) (rest : List Byte) (k : EventKind),
    s.tmPhase = .idle → s.rpoll = .none → s.rxState = .idle →
    s.moves = [.host (hostWord 0x3 false false 0 0 0)] → s.rxq = f.bytes ++ rest →
    validateFrame f = true → classify f.command f.parameter = .event k →
      runsTo 13 s
        { s with
          moves := [], accepted := true, rxq := rest, result := .bit true
          report := .frameReady f.command f.parameter
          rxf := { command := f.command, ackFlag := f.ackFlag, paramHi := f.paramHi,
                   paramLo := f.paramLo, cksumHi := f.cksumHi, cksumLo := f.cksumLo }
          ev := { kind := k, parameter := f.parameter, command := f.command, available := true } }

/-- POLL begins (44_driver.md R160), and over an empty RXQ with no transaction pending it yields the flag as
it stands and changes nothing of `S` (41_receiver.md R105). -/
def Obligations.PollWithNothingToReport : Prop :=
  ∀ s : State, s.tmPhase = .idle →
    exec .poll s = .next
      { s with accepted := true, tmPhase := .poll, rpoll := .draining, report := .noData } ∧
    (s.rpoll = .none → s.rxq = [] → s.pending.valid = false →
      s.moves = [.host (hostWord 0x3 false false 0 0 0)] →
        runsTo 3 s
          { s with moves := [], accepted := true, report := .noData, result := .bit s.ev.available })

/-- `available` rises only in a poll: at a byte step or time-out check, or at the classification of a frame
(10_state.md R21, 60_exceptions.md R188). -/
def Obligations.AvailableRisesOnlyInPoll : Prop :=
  ∀ s t : State, step s = .next t → s.ev.available = false → t.ev.available = true →
    (takeMove s).1 = .block ∧ (s.rpoll = .draining ∨ s.rpoll = .frame)

/-- RXQ changes only by the removal of its head inside a poll (20_memory.md R42, R51 (a)), by a byte the
peripheral appends, or by the loss of a byte. The last, at any place of the queue, is the model's choice
(log entry 16): the spec leaves open what an overflowing transport loses
(93_implementation_defined.md U17). -/
def Obligations.QueueConsumedFromItsHead : Prop :=
  ∀ s t : State, step s = .next t →
    t.rxq = s.rxq ∨
    ((takeMove s).1 = .block ∧ s.rpoll = .draining ∧ ∃ b, s.rxq = b :: t.rxq) ∨
    (∃ b, (takeMove s).1 = .envRx b ∧ t.rxq = s.rxq ++ [b]) ∨
    (∃ n, (takeMove s).1 = .envDrop n ∧ t.rxq = s.rxq.eraseIdx n)

/-! ### Received frames -/

/-- A received frame with command 0x3C, 0x3E or 0x42 to 0x47, any ackFlag byte, any parameter and the right
checksum field is classified FeedBack; the four fields of the event slot are written and nothing else
(42_classifier.md R113, R115, R119 to R124). -/
def Obligations.FeedBackFramesLow : Prop :=
  ∀ (a : Byte) (p : U16) (s : State),
    deliversEvent (.rx3cFeedback a p (frameChecksum 0x3C a p)) .feedBack 0x3C p s ∧
    deliversEvent (.rx3eFeedback a p (frameChecksum 0x3E a p)) .feedBack 0x3E p s ∧
    deliversEvent (.rx42Feedback a p (frameChecksum 0x42 a p)) .feedBack 0x42 p s ∧
    deliversEvent (.rx43Feedback a p (frameChecksum 0x43 a p)) .feedBack 0x43 p s ∧
    deliversEvent (.rx44Feedback a p (frameChecksum 0x44 a p)) .feedBack 0x44 p s ∧
    deliversEvent (.rx45Feedback a p (frameChecksum 0x45 a p)) .feedBack 0x45 p s ∧
    deliversEvent (.rx46Feedback a p (frameChecksum 0x46 a p)) .feedBack 0x46 p s ∧
    deliversEvent (.rx47Feedback a p (frameChecksum 0x47 a p)) .feedBack 0x47 p s

/-- A received frame with command 0x48, 0x49 or 0x4B to 0x4F, any ackFlag byte, any parameter and the right
checksum field is classified FeedBack; the four fields of the event slot are written and nothing else
(42_classifier.md R125 to R131). -/
def Obligations.FeedBackFramesHigh : Prop :=
  ∀ (a : Byte) (p : U16) (s : State),
    deliversEvent (.rx48Feedback a p (frameChecksum 0x48 a p)) .feedBack 0x48 p s ∧
    deliversEvent (.rx49Feedback a p (frameChecksum 0x49 a p)) .feedBack 0x49 p s ∧
    deliversEvent (.rx4bFeedback a p (frameChecksum 0x4B a p)) .feedBack 0x4B p s ∧
    deliversEvent (.rx4cFeedback a p (frameChecksum 0x4C a p)) .feedBack 0x4C p s ∧
    deliversEvent (.rx4dFeedback a p (frameChecksum 0x4D a p)) .feedBack 0x4D p s ∧
    deliversEvent (.rx4eFeedback a p (frameChecksum 0x4E a p)) .feedBack 0x4E p s ∧
    deliversEvent (.rx4fFeedback a p (frameChecksum 0x4F a p)) .feedBack 0x4F p s

/-- The three commands with status bits (42_classifier.md R111, R112, R116, R137): 0x3A inserted, 0x3B removed,
0x3F online. Parameter bit 0 set gives the USB kind, whatever bit 1 is; else bit 1 set gives the card
kind; with neither the frame leaves no trace. The event slot is written and nothing else. -/
def Obligations.StatusBitFrames : Prop :=
  ∀ (a : Byte) (p : U16) (s : State),
    (p.getLsbD 0 = true →
      deliversEvent (.rx3aUsbinserted a p (frameChecksum 0x3A a p)) .usbInserted 0x3A p s ∧
      deliversEvent (.rx3bUsbremoved a p (frameChecksum 0x3B a p)) .usbRemoved 0x3B p s ∧
      deliversEvent (.rx3fUsbonline a p (frameChecksum 0x3F a p)) .usbOnline 0x3F p s) ∧
    (p.getLsbD 0 = false → p.getLsbD 1 = true →
      deliversEvent (.rx3aCardinserted a p (frameChecksum 0x3A a p)) .cardInserted 0x3A p s ∧
      deliversEvent (.rx3bCardremoved a p (frameChecksum 0x3B a p)) .cardRemoved 0x3B p s ∧
      deliversEvent (.rx3fCardonline a p (frameChecksum 0x3F a p)) .cardOnline 0x3F p s) ∧
    (p.getLsbD 0 = false → p.getLsbD 1 = false →
      dropsFrame (.rx3aNomatch a p (frameChecksum 0x3A a p)) 0x3A p s ∧
      dropsFrame (.rx3bNomatch a p (frameChecksum 0x3B a p)) 0x3B p s ∧
      dropsFrame (.rx3fNomatch a p (frameChecksum 0x3F a p)) 0x3F p s)

/-- With any ackFlag byte and parameter and the right checksum field: 0x3D is a PlayFinished event, 0x40 the
peripheral's Error event, and 0x41 the acknowledgment, which clears `pending.valid` and writes nothing
else (42_classifier.md R114, R117, R118, R135). -/
def Obligations.PlayFinishedErrorAndAckFrames : Prop :=
  ∀ (a : Byte) (p : U16) (s : State),
    deliversEvent (.rx3dPlayfinished a p (frameChecksum 0x3D a p)) .playFinished 0x3D p s ∧
    deliversEvent (.rx40Error a p (frameChecksum 0x40 a p)) .error 0x40 p s ∧
    classify 0x41 p = .ack ∧
    exec (.rx41Ack a p (frameChecksum 0x41 a p)) s =
      .next { s with pending := { s.pending with valid := false } }

/-- Every other command, 0x00 to 0x39, 0x4A and 0x50 to 0xFF, fails classification: the poll result is
MalformedStack with cause UnlistedCommand, the event slot holds WrongStack, ERR_PARAM(UnlistedCommand),
the frame's command and the flag, the receiver is in Idle; nothing else is written (42_classifier.md
R132, R136). -/
def Obligations.UnlistedFramesFail : Prop :=
  ∀ (c a : Byte) (p : U16) (s : State),
    (c.toNat ≤ 0x1F → failsFrame (.rxUnlisted001f c a p (frameChecksum c a p)) c p s) ∧
    (0x20 ≤ c.toNat → c.toNat ≤ 0x2F →
      failsFrame (.rxUnlisted202f c a p (frameChecksum c a p)) c p s) ∧
    (0x30 ≤ c.toNat → c.toNat ≤ 0x37 →
      failsFrame (.rxUnlisted3037 c a p (frameChecksum c a p)) c p s) ∧
    (0x38 ≤ c.toNat → c.toNat ≤ 0x39 →
      failsFrame (.rxUnlisted3839 c a p (frameChecksum c a p)) c p s) ∧
    failsFrame (.rxUnlisted4a a p (frameChecksum 0x4A a p)) 0x4A p s ∧
    (0x50 ≤ c.toNat → c.toNat ≤ 0x5F →
      failsFrame (.rxUnlisted505f c a p (frameChecksum c a p)) c p s) ∧
    (0x60 ≤ c.toNat → c.toNat ≤ 0x7F →
      failsFrame (.rxUnlisted607f c a p (frameChecksum c a p)) c p s) ∧
    (0x80 ≤ c.toNat → failsFrame (.rxUnlisted80ff c a p (frameChecksum c a p)) c p s)

/-- A received frame whose checksum field is wrong is MalformedStack with cause BadChecksum, whatever its
command; the command field of the event slot is kept (41_receiver.md R100, 42_classifier.md R138). That
the frame row itself makes the test is the model's (log entry 13). -/
def Obligations.BadChecksumFrames : Prop :=
  ∀ (c a : Byte) (p k : U16) (s : State), k ≠ frameChecksum c a p →
    exec (rxRow c a p k) s = .next
      { s with
        report := .malformed .badChecksum
        rxState := .idle
        ev := { kind := .wrongStack, parameter := Config.ERR_PARAM .badChecksum,
                command := s.ev.command, available := true } }

/-- The row a valid frame decodes to does what CLASSIFY of its command and parameter says
(42_classifier.md R110, R134 to R137; 44_driver.md R160). -/
def Obligations.FrameRowsFollowClassify : Prop :=
  ∀ (c a : Byte) (p : U16) (s : State),
    ∃ i, decode (rxWord c a p (frameChecksum c a p)) = .ok i ∧
      exec i s = .next (applyOutcome (classify c p) c p s)

/-- The kind CardUSBOnline is never written, but by a hardware reset that leaves the kind unspecified
(42_classifier.md R116, 93_implementation_defined.md U3). -/
def Obligations.CardUsbOnlineNeverWritten : Prop :=
  ∀ s t : State, step s = .next t → (takeMove s).1 ≠ .reset →
    t.ev.kind = .cardUsbOnline → s.ev.kind = .cardUsbOnline

/-! ### SEND and WAITEV -/

/-- SEND, SENDM, QUERY and INIT with a reset, where nothing holds them back, put their frame into TXB and
go on to the write (43_transaction.md R140, R142; 44_driver.md R164 to R166). -/
def Obligations.SendPutsFrameInBuffer : Prop :=
  ∀ (c : Byte) (g : U16) (a : Bool) (s : State), s.tmPhase = .idle →
    ((a = false ∨ s.pending.valid = false) →
      exec (.send c g a) s = .next
        { s with accepted := true, txb := encodeFrame c (if a then 0x01 else 0x00) g,
                 tmPhase := .sendWrite .direct a c g, rpoll := .none } ∧
      exec (.init a true) s = .next
        { s with accepted := true, ackMode := a,
                 txb := encodeFrame Config.RESET_CMD (if a then 0x01 else 0x00) 0x0000,
                 tmPhase := .sendWrite .init a Config.RESET_CMD 0x0000, rpoll := .none }) ∧
    ((s.ackMode = false ∨ s.pending.valid = false) →
      exec (.sendm c g) s = .next
        { s with accepted := true, txb := encodeFrame c (if s.ackMode then 0x01 else 0x00) g,
                 tmPhase := .sendWrite .direct s.ackMode c g, rpoll := .none }) ∧
    (s.pending.valid = false →
      exec (.query c g) s = .next
        { s with accepted := true, txb := encodeFrame c 0x01 g,
                 tmPhase := .sendWrite .query true c g, rpoll := .none })

/-- The blocking rule (43_transaction.md R141): with ackRequired and a transaction pending, SEND, QUERY, INIT
with a reset in ACK mode, and SENDM in ACK mode write nothing and poll; after each poll the loop goes on while the transaction is
pending and else goes on to the frame. -/
def Obligations.SendBlocksWhilePending : Prop :=
  (∀ (c : Byte) (g : U16) (s : State), s.tmPhase = .idle → s.pending.valid = true →
    exec (.send c g true) s = .next
      { s with accepted := true, tmPhase := .sendBlocked .direct c g, rpoll := .draining,
               report := .noData } ∧
    exec (.query c g) s = .next
      { s with accepted := true, tmPhase := .sendBlocked .query c g, rpoll := .draining,
               report := .noData } ∧
    exec (.init true true) s = .next
      { s with accepted := true, ackMode := true, rpoll := .draining, report := .noData,
               tmPhase := .sendBlocked .init Config.RESET_CMD 0x0000 } ∧
    (s.ackMode = true → exec (.sendm c g) s = .next
      { s with accepted := true, tmPhase := .sendBlocked .direct c g, rpoll := .draining,
               report := .noData })) ∧
  ∀ (s s' : State) (o : Owner) (c : Byte) (g : U16),
    takeMove s = (.block, s') → s'.rpoll = .finished → s'.tmPhase = .sendBlocked o c g →
      step s = .next
        (if s'.pending.valid then { s' with rpoll := .draining, report := .noData }
         else { s' with txb := encodeFrame c 0x01 g, tmPhase := .sendWrite o true c g,
                        rpoll := .none })

/-- TX_FRAME appends the frame's ten bytes, in index order, to TXLOG (43_transaction.md R142,
20_memory.md R43). -/
def Obligations.TxFrameAppendsTenBytes : Prop :=
  ∀ (c : Byte) (a : Bool) (g : U16) (s : State),
    exec (.txFrame c a g) s = .next
      { s with txlog := s.txlog ++
          [0x7E, 0xFF, 0x06, c, if a then 0x01 else 0x00, hiByte g, loByte g,
            hiByte (checksumOf 0xFF 0x06 c (if a then 0x01 else 0x00) (hiByte g) (loByte g)),
            loByte (checksumOf 0xFF 0x06 c (if a then 0x01 else 0x00) (hiByte g) (loByte g)),
            0xEF] }

/-- A SEND with ackRequired as one run, the clock moving before and after the write
(43_transaction.md R143, R145): the frame is written, the transaction is recorded with sentAt read after
the write and the deadline timeoutDuration, and SEND returns at once. -/
def Obligations.AckSendRecordsTransaction : Prop :=
  ∀ (s : State) (c : Byte) (g : U16) (d1 d2 : Time),
    s.tmPhase = .idle → s.rpoll = .none → s.pending.valid = false →
    s.moves =
      [.host (hostWord 0x2 true false c g 0), .envTick d1, .block, .envTick d2, .block] →
      runsTo 5 s
        { s with
          moves := [], accepted := true, result := .void, clock := s.clock + d1 + d2
          txb := encodeFrame c 0x01 g
          txlog := s.txlog ++ (encodeFrame c 0x01 g).bytes
          pending := { valid := true, command := c, argument := g, requiresAck := true,
                       sentAt := s.clock + d1 + d2, deadline := s.timeoutDuration } }

/-- A SEND without ackRequired as one run (43_transaction.md R144, R146): it does not block, writes, and
returns only when 10 time units have passed since the write; the pending transaction, if any, and the
receive queue are left exactly as they were. -/
def Obligations.PlainSendWaitsQuiescence : Prop :=
  ∀ (s : State) (c : Byte) (g : U16) (d : Time),
    s.tmPhase = .idle → s.rpoll = .none →
    s.moves = [.host (hostWord 0x2 false false c g 0), .block, .envTick d, .block] →
      runsTo 4 s
        { s with
          moves := [], accepted := true, clock := s.clock + d
          txb := encodeFrame c 0x00 g
          txlog := s.txlog ++ (encodeFrame c 0x00 g).bytes
          tmPhase := if 10 ≤ d.toNat then .idle else .sendQuiesce .direct s.clock
          result := if 10 ≤ d.toNat then .void else s.result }

/-- Single in flight, and nothing but whole frames on the line (43_transaction.md R149, R142;
20_memory.md R43): a step that changes TXLOG appends the ten bytes of one encoded frame, inside a SEND,
and if the frame asks for an acknowledgment no transaction is pending. That the reset line leaves TXLOG as
it is is the model's choice (log entry 24). -/
def Obligations.WritesOnlyWholeFramesOneInFlight : Prop :=
  ∀ s t : State, Inv s → step s = .next t →
    t.txlog = s.txlog ∨
    ∃ o a c g, (takeMove s).1 = .block ∧ s.tmPhase = .sendWrite o a c g ∧
      t.txlog = s.txlog ++ (encodeFrame c (ackByte a) g).bytes ∧
      (a = true → s.pending.valid = false)

/-- A pending transaction is resolved by exactly two events, a valid ACK frame and the time-out check
(43_transaction.md R147), or removed by a hardware reset (10_state.md R16); and it becomes pending only
where a SEND records it (R145). -/
def Obligations.PendingResolvedOnlyByAckOrTimeout : Prop :=
  ∀ s t : State, step s = .next t →
    (s.pending.valid = true → t.pending.valid = false →
      (takeMove s).1 = .reset ∨
      ((takeMove s).1 = .block ∧ s.rpoll = .frame ∧ s.rxf.command = 0x41 ∧
        validateFrame (assembledFrame s.rxf) = true) ∨
      ((takeMove s).1 = .block ∧ s.rpoll = .draining ∧ s.rxq = [] ∧ timeoutDue s = true)) ∧
    (s.pending.valid = false → t.pending.valid = true →
      (takeMove s).1 = .block ∧ ∃ o c g, s.tmPhase = .sendRecord o c g)

/-- WAITEV (43_transaction.md R148): it reads t0 and polls first; after each poll it yields true if an event
is available, else false if maxDuration has elapsed since t0, storing nothing, else polls again. -/
def Obligations.WaitevPollsThenTests : Prop :=
  (∀ (d : Time) (s : State), s.tmPhase = .idle →
    exec (.waitev d) s = .next
      { s with accepted := true, tmPhase := .waitEvent .direct s.clock d, rpoll := .draining,
               report := .noData }) ∧
  ∀ (s s' : State) (t0 d : Time),
    takeMove s = (.block, s') → s'.rpoll = .finished → s'.tmPhase = .waitEvent .direct t0 d →
      step s = .next
        (if s'.ev.available then
          { s' with tmPhase := .idle, rpoll := .none, result := .bit true }
         else if d.toNat ≤ (s'.clock - t0).toNat then
          { s' with tmPhase := .idle, rpoll := .none, result := .bit false }
         else { s' with rpoll := .draining, report := .noData })

/-! ### Driver -/

/-- RDKIND, RDPARAM and RDCMD return their field whatever the flag, and clear the flag and nothing else of
`S` (44_driver.md R161 to R163). -/
def Obligations.ReadsReturnFieldAndClearFlag : Prop :=
  ∀ s : State, s.tmPhase = .idle →
    exec .rdkind s = .next
      { s with accepted := true, ev := { s.ev with available := false },
               result := .kind s.ev.kind } ∧
    exec .rdparam s = .next
      { s with accepted := true, ev := { s.ev with available := false },
               result := .parameter s.ev.parameter } ∧
    exec .rdcmd s = .next
      { s with accepted := true, ev := { s.ev with available := false },
               result := .command s.ev.command }

/-- INIT without a reset of the peripheral (44_driver.md R164): ACK mode is set, the kind CardOnline is
assumed, the flag is cleared, the result is true; nothing is sent. -/
def Obligations.InitWithoutResetSucceeds : Prop :=
  ∀ (a : Bool) (s : State), s.tmPhase = .idle →
    exec (.init a false) s = .next
      { s with accepted := true, ackMode := a
               ev := { s.ev with kind := .cardOnline, available := false }
               tmPhase := .idle, rpoll := .none, result := .bit true }

/-- How INIT with a reset goes on and ends (44_driver.md R164): after its SEND a WAITEV of 2000; after that
the settle delay; then the flag is cleared and the result is true iff ACK mode is off, or an event
arrived and its kind is CardOnline or USBOnline. -/
def Obligations.InitWaitsSettlesAndJudges : Prop :=
  ∀ s s' : State, takeMove s = (.block, s') →
    (∀ c g, s'.rpoll = .none → s'.tmPhase = .sendRecord .init c g →
      step s = .next
        { s' with
          pending := { valid := true, command := c, argument := g, requiresAck := true,
                       sentAt := s'.clock, deadline := s'.timeoutDuration }
          tmPhase := .waitStart .init 2000 }) ∧
    (∀ t0, s'.rpoll = .none → s'.tmPhase = .sendQuiesce .init t0 →
      step s = .next
        (if 10 ≤ (s'.clock - t0).toNat then { s' with tmPhase := .waitStart .init 2000 } else s')) ∧
    (∀ d, s'.rpoll = .none → s'.tmPhase = .waitStart .init d →
      step s = .next
        { s' with tmPhase := .waitEvent .init s'.clock d, rpoll := .draining, report := .noData }) ∧
    (∀ t0 d, s'.rpoll = .finished → s'.tmPhase = .waitEvent .init t0 d →
      step s = .next
        (if s'.ev.available then { s' with tmPhase := .initSettle true s'.clock, rpoll := .none }
         else if d.toNat ≤ (s'.clock - t0).toNat then
          { s' with tmPhase := .initSettle false s'.clock, rpoll := .none }
         else { s' with rpoll := .draining, report := .noData })) ∧
    (∀ arrived t0, s'.rpoll = .none → s'.tmPhase = .initSettle arrived t0 →
      step s = .next
        (if Config.SETTLE_DELAY.toNat ≤ (s'.clock - t0).toNat then
          { s' with
            ev := { s'.ev with available := false }
            tmPhase := .idle, rpoll := .none
            result := .bit (decide (s'.ackMode = false ∨
              (arrived = true ∧ (s'.ev.kind = .cardOnline ∨ s'.ev.kind = .usbOnline)))) }
         else s'))

/-- How QUERY goes on and ends (44_driver.md R165): after its SEND a WAITEV of TIMEOUT_DEFAULT; an event
that arrived is read, and the result is its parameter if it is FeedBack and -1 if not; when nothing
arrived the result is -1 without a read. -/
def Obligations.QueryWaitsAndAnswers : Prop :=
  ∀ s s' : State, takeMove s = (.block, s') →
    (∀ c g, s'.rpoll = .none → s'.tmPhase = .sendRecord .query c g →
      step s = .next
        { s' with
          pending := { valid := true, command := c, argument := g, requiresAck := true,
                       sentAt := s'.clock, deadline := s'.timeoutDuration }
          tmPhase := .waitStart .query Config.TIMEOUT_DEFAULT }) ∧
    (∀ d, s'.rpoll = .none → s'.tmPhase = .waitStart .query d →
      step s = .next
        { s' with tmPhase := .waitEvent .query s'.clock d, rpoll := .draining, report := .noData }) ∧
    (∀ t0 d, s'.rpoll = .finished → s'.tmPhase = .waitEvent .query t0 d →
      step s = .next
        (if s'.ev.available then
          { s' with
            ev := { s'.ev with available := false }
            tmPhase := .idle, rpoll := .none
            result := .query (if s'.ev.kind = .feedBack then s'.ev.parameter.setWidth 32 else -1) }
         else if d.toNat ≤ (s'.clock - t0).toNat then
          { s' with tmPhase := .idle, rpoll := .none, result := .query (-1) }
         else { s' with rpoll := .draining, report := .noData }))

/-- When a QUERY ends, `available` is 0 in every path (44_driver.md R165: "On return `S.ev.available = 0` in
every path"). -/
def Obligations.QueryLeavesNoEventAvailable : Prop :=
  ∀ (s t : State) (t0 d : Time), step s = .next t →
    s.tmPhase = .waitEvent .query t0 d → t.tmPhase = .idle → t.ev.available = false

/-- SENDM is SEND with the driver's ACK mode (44_driver.md R166). -/
def Obligations.SendmIsSendInAckMode : Prop :=
  ∀ (c : Byte) (g : U16) (s : State), exec (.sendm c g) s = exec (.send c g s.ackMode) s

/-- ACK mode is written only by INIT and by hardware reset (10_state.md R14). -/
def Obligations.AckModeWrittenOnlyByInit : Prop :=
  ∀ s t : State, step s = .next t → t.ackMode ≠ s.ackMode →
    (takeMove s).1 = .reset ∨
    ∃ h a r, (takeMove s).1 = .host h ∧ decode (.host h) = .ok (.init a r) ∧ t.ackMode = a

/-! ### The port, rest, the environment -/

/-- A word presented while an operation is in progress is not accepted and changes nothing, whatever the
word (30_encoding.md R69, 60_exceptions.md R189, 10_state.md R20). -/
def Obligations.BusyAcceptsNothing : Prop :=
  ∀ (s : State) (h : BitVec 64) (r : List Move),
    s.moves = .host h :: r → s.tmPhase ≠ .idle →
      step s = .next { s with moves := r, accepted := false }

/-- NOP is accepted and has no effect; a reserved operation code is not accepted and changes nothing, busy
or not, and so is a word with non-zero `zero` bits (30_encoding.md R69). That `accepted` is how the port
says so is the model's (log entries 9 and 10). -/
def Obligations.NopAndRefusedCodes : Prop :=
  (∀ s : State, s.tmPhase = .idle → exec .nop s = .next { s with accepted := true }) ∧
  (∀ s : State,
    exec .reservedOpA s = .next { s with accepted := false } ∧
    exec .reservedOpB s = .next { s with accepted := false } ∧
    exec .reservedOpC s = .next { s with accepted := false } ∧
    exec .reservedOpD s = .next { s with accepted := false } ∧
    exec .reservedOpE s = .next { s with accepted := false } ∧
    exec .reservedOpF s = .next { s with accepted := false }) ∧
  (∀ (s : State) (h : BitVec 64) (r : List Move) (e : DecodeError),
    s.moves = .host h :: r → decode (.host h) = .error e →
      step s = .next { s with moves := r, accepted := false })

/-- At rest the block does nothing by itself (70_reset_and_hazards.md R216): it does not poll, check the
deadline or write. -/
def Obligations.AtRestNothingHappens : Prop :=
  ∀ s s' : State, takeMove s = (.block, s') → s'.tmPhase = .idle → s'.rpoll = .none →
    step s = .next s'

/-- The environment's moves (20_memory.md R40, R50): a byte is appended to the tail of RXQ, the clock
advances, and nothing else changes, whatever the block is doing. -/
def Obligations.EnvironmentMoves : Prop :=
  ∀ (s : State) (r : List Move),
    (∀ b, s.moves = .envRx b :: r → step s = .next { s with moves := r, rxq := s.rxq ++ [b] }) ∧
    (∀ d, s.moves = .envTick d :: r → step s = .next { s with moves := r, clock := s.clock + d })

/-- TXLOG is append-only and never read (10_state.md R22 (b), 20_memory.md R52): with any other TXLOG the
same step appends the same bytes and does the same to everything else. That the reset line leaves TXLOG
as it is is the model's choice (log entry 24). -/
def Obligations.TransmitLogNeverRead : Prop :=
  ∀ (s t : State) (l : List Byte), step s = .next t →
    ∃ d, t.txlog = s.txlog ++ d ∧ step { s with txlog := l } = .next { t with txlog := l ++ d }

/-! ### Reset and the invariant -/

/-- What the spec states of the state after reset (10_state.md R23): the values it gives, no others. -/
def Obligations.ResetStateValues : Prop :=
  State.reset.rxState = .idle ∧ State.reset.pending.valid = false ∧
  State.reset.ev.available = false ∧ State.reset.ackMode = false ∧
  State.reset.timeoutDuration = Config.TIMEOUT_DEFAULT ∧ 0 < Config.TIMEOUT_DEFAULT.toNat ∧
  State.reset.tmPhase = .idle

/-- The reset line in any state (70_reset_and_hazards.md R200, R201): every field of `S` at the value of
10_state.md R23 where it gives one, an operation in progress abandoned; RXQ and the clock are not touched.
That TXLOG is kept, and that the poll in progress is over with the operation, is the model's choice (log
entries 24 and 5): R23 says of TXLOG only "empty as far as this instance wrote". -/
def Obligations.ResetLineFromAnyState : Prop :=
  ∀ (s : State) (r : List Move), s.moves = .reset :: r →
    ∃ t, step s = .next t ∧
      t.rxState = .idle ∧ t.pending.valid = false ∧ t.ev.available = false ∧ t.ackMode = false ∧
      t.timeoutDuration = Config.TIMEOUT_DEFAULT ∧ t.tmPhase = .idle ∧ t.rpoll = .none ∧
      t.rxq = s.rxq ∧ t.txlog = s.txlog ∧ t.clock = s.clock ∧ t.moves = r

/-- The consistency invariant (`Inv` of Safety.lean) holds of the state after power-up (10_state.md R23). -/
def Obligations.ResetMeetsConsistency : Prop := Inv State.reset

/-- Every step, of every agent, keeps the consistency invariant (`Inv` of Safety.lean): a valid pending
transaction has requiresAck 1 and the configured deadline; timeoutDuration is TIMEOUT_DEFAULT; a receiver
poll runs exactly inside POLL, a blocked SEND and WAITEV; a frame waiting to be classified is valid and
the receiver in Idle; nothing is pending when an acknowledged frame is about to be written or recorded;
the frame about to be written is the encoded one (10_state.md R15, R17; 41_receiver.md R100, R104;
43_transaction.md R142, R145, R149). -/
def Obligations.StepKeepsConsistency : Prop :=
  ∀ s t : State, Inv s → step s = .next t → Inv t
end

