-- ==== Sys2Proof/Laws/Decode.lean ====
section
/-! SUPPORT. The bit layouts invert: frames, 16-bit fields, receiver codes, host words. -/

namespace Sys2Proof

theorem pairU16_hi_lo (v : U16) : pairU16 (hiByte v) (loByte v) = v := by
  apply BitVec.eq_of_getLsbD_eq
  intro i hi
  simp only [pairU16, hiByte, loByte, BitVec.getLsbD_append, BitVec.getLsbD_extractLsb']
  by_cases h : i < 8
  · simp [h]
  · have : i - 8 < 8 := by omega
    have e : 8 + (i - 8) = i := by omega
    simp [h, this, e]

theorem hiByte_pair (h l : Byte) : hiByte (pairU16 h l) = h := by
  apply BitVec.eq_of_getLsbD_eq
  intro i hi
  simp only [pairU16, hiByte, BitVec.getLsbD_append, BitVec.getLsbD_extractLsb']
  simp [hi]

theorem loByte_pair (h l : Byte) : loByte (pairU16 h l) = l := by
  apply BitVec.eq_of_getLsbD_eq
  intro i hi
  simp only [pairU16, loByte, BitVec.getLsbD_append, BitVec.getLsbD_extractLsb']
  simp [hi]

/-- The byte at a known place of a concatenation, one byte from the right at a time. -/
theorem extract_append_right {n : Nat} (x : BitVec n) (b : Byte) :
    (x ++ b).extractLsb' 0 8 = b := by
  apply BitVec.eq_of_getLsbD_eq
  intro i hi
  simp only [BitVec.getLsbD_append, BitVec.getLsbD_extractLsb']
  simp [hi]

theorem extract_append_left {n w : Nat} (x : BitVec n) (b : Byte) (k : Nat) :
    (x ++ b).extractLsb' (k + 8) w = x.extractLsb' k w := by
  apply BitVec.eq_of_getLsbD_eq
  intro i hi
  simp only [BitVec.getLsbD_append, BitVec.getLsbD_extractLsb']
  have e : k + 8 + i - 8 = k + i := by omega
  have n8 : ¬ k + 8 + i < 8 := by omega
  simp [n8, e]

theorem extract_self (b : Byte) : b.extractLsb' 0 8 = b := by
  apply BitVec.eq_of_getLsbD_eq
  intro i hi
  simp [hi]

theorem Frame.ofBits_toBits (f : Frame) : Frame.ofBits f.toBits = f := by
  obtain ⟨b0, b1, b2, b3, b4, b5, b6, b7, b8, b9⟩ := f
  simp only [Frame.ofBits, Frame.toBits, Frame.mk.injEq]
  refine ⟨?_, ?_, ?_, ?_, ?_, ?_, ?_, ?_, ?_, extract_append_right _ _⟩
  · rw [extract_append_left (k := 64), extract_append_left (k := 56), extract_append_left (k := 48),
      extract_append_left (k := 40), extract_append_left (k := 32), extract_append_left (k := 24),
      extract_append_left (k := 16), extract_append_left (k := 8), extract_append_left (k := 0)]
    exact extract_self _
  · rw [extract_append_left (k := 56), extract_append_left (k := 48),
      extract_append_left (k := 40), extract_append_left (k := 32), extract_append_left (k := 24),
      extract_append_left (k := 16), extract_append_left (k := 8), extract_append_left (k := 0)]
    exact extract_append_right _ _
  · rw [extract_append_left (k := 48),
      extract_append_left (k := 40), extract_append_left (k := 32), extract_append_left (k := 24),
      extract_append_left (k := 16), extract_append_left (k := 8), extract_append_left (k := 0)]
    exact extract_append_right _ _
  · rw [extract_append_left (k := 40), extract_append_left (k := 32), extract_append_left (k := 24),
      extract_append_left (k := 16), extract_append_left (k := 8), extract_append_left (k := 0)]
    exact extract_append_right _ _
  · rw [extract_append_left (k := 32), extract_append_left (k := 24),
      extract_append_left (k := 16), extract_append_left (k := 8), extract_append_left (k := 0)]
    exact extract_append_right _ _
  · rw [extract_append_left (k := 24),
      extract_append_left (k := 16), extract_append_left (k := 8), extract_append_left (k := 0)]
    exact extract_append_right _ _
  · rw [extract_append_left (k := 16), extract_append_left (k := 8), extract_append_left (k := 0)]
    exact extract_append_right _ _
  · rw [extract_append_left (k := 8), extract_append_left (k := 0)]
    exact extract_append_right _ _
  · rw [extract_append_left (k := 0)]
    exact extract_append_right _ _

theorem Frame.toBits_ofBits (v : BitVec 80) : (Frame.ofBits v).toBits = v := by
  apply BitVec.eq_of_getLsbD_eq
  intro i hi
  simp only [Frame.ofBits, Frame.toBits, BitVec.getLsbD_append, BitVec.getLsbD_extractLsb']
  interval_cases i <;> simp

theorem RxState.ofCode_code (r : RxState) : RxState.ofCode r.code = some r := by
  cases r <;> decide

theorem RxState.code_of_ofCode {c : BitVec 4} {r : RxState} (h : RxState.ofCode c = some r) :
    r.code = c := by
  revert h; revert c r; decide

@[simp] theorem frameOf_hasConstants (c a : Byte) (p k : U16) : (frameOf c a p k).hasConstants = true :=
  rfl

theorem frameOf_parameter (c a : Byte) (p k : U16) : (frameOf c a p k).parameter = p :=
  pairU16_hi_lo p

theorem frameOf_cksum (c a : Byte) (p k : U16) : (frameOf c a p k).cksum = k := pairU16_hi_lo k

/-- A frame with the fixed constants is the frame of its four variable fields. -/
theorem eq_frameOf_of_hasConstants {f : Frame} (h : f.hasConstants = true) :
    f = frameOf f.command f.ackFlag f.parameter f.cksum := by
  obtain ⟨b0, b1, b2, b3, b4, b5, b6, b7, b8, b9⟩ := f
  simp only [Frame.hasConstants, Bool.and_eq_true, beq_iff_eq] at h
  obtain ⟨⟨⟨rfl, rfl⟩, rfl⟩, rfl⟩ := h
  simp [frameOf, Frame.parameter, Frame.cksum, hiByte_pair, loByte_pair]

/-- Decoding the word of a received frame reads its four variable fields. -/
theorem decode_rxWord (c a : Byte) (p k : U16) : decode (rxWord c a p k) = .ok (rxRow c a p k) := by
  simp only [decode, rxWord, decodeRxFrame, Frame.ofBits_toBits, frameOf_hasConstants, if_true,
    frameOf_parameter, frameOf_cksum]
  rfl

/-- Decoding the word of a byte step gives the row of its position. -/
theorem decode_rxByteWord (r : RxState) (b : Byte) : decode (rxByteWord r b) = .ok (rxStepRow r b) := by
  have hr : (r.code ++ b).extractLsb' 8 4 = r.code := by
    rw [extract_append_left (k := 0)]
    apply BitVec.eq_of_getLsbD_eq
    intro i hi
    simp [hi]
  simp only [decode, rxByteWord, decodeRxByte, hr, RxState.ofCode_code]
  rw [extract_append_right]

/-- Decoding the transmit buffer of a SEND gives the frame SEND writes. -/
theorem decode_txWord (c : Byte) (a : Bool) (g : U16) :
    decode (.txFrame (encodeFrame c (ackByte a) g).toBits) = .ok (.txFrame c a g) := by
  simp only [decode, decodeTxFrame, Frame.ofBits_toBits, encodeFrame, frameOf_hasConstants,
    frameOf_parameter, frameOf_cksum]
  have hc : (frameOf c (ackByte a) g (frameChecksum c (ackByte a) g)).command = c := rfl
  have ha : (frameOf c (ackByte a) g (frameChecksum c (ackByte a) g)).ackFlag = ackByte a := rfl
  rw [hc, ha]
  cases a <;> simp [ackByte]

/-- A word of the host port decodes to a row of the host operation port (30_encoding.md R69). -/
theorem decode_host_cases {w : BitVec 64} {i : Instr} (h : decode (.host w) = .ok i) :
    i ∈ [Instr.nop, .poll, .rdkind, .rdparam, .rdcmd, .reservedOpA, .reservedOpB, .reservedOpC,
        .reservedOpD, .reservedOpE, .reservedOpF] ∨
      (∃ a r, i = .init a r) ∨ (∃ c g a, i = .send c g a) ∨ (∃ d, i = .waitev d) ∨
      (∃ c g, i = .query c g) ∨ ∃ c g, i = .sendm c g := by
  simp only [decode, decodeHost] at h
  by_cases h0 : w.extractLsb' 60 4 = 0xA
  · rw [if_pos h0] at h; cases h; simp
  rw [if_neg h0] at h; clear h0
  by_cases h0 : w.extractLsb' 60 4 = 0xB
  · rw [if_pos h0] at h; cases h; simp
  rw [if_neg h0] at h; clear h0
  by_cases h0 : w.extractLsb' 60 4 = 0xC
  · rw [if_pos h0] at h; cases h; simp
  rw [if_neg h0] at h; clear h0
  by_cases h0 : w.extractLsb' 60 4 = 0xD
  · rw [if_pos h0] at h; cases h; simp
  rw [if_neg h0] at h; clear h0
  by_cases h0 : w.extractLsb' 60 4 = 0xE
  · rw [if_pos h0] at h; cases h; simp
  rw [if_neg h0] at h; clear h0
  by_cases h0 : w.extractLsb' 60 4 = 0xF
  · rw [if_pos h0] at h; cases h; simp
  rw [if_neg h0] at h; clear h0
  by_cases h0 : w.extractLsb' 56 2 ≠ 0
  · rw [if_pos h0] at h; cases h
  rw [if_neg h0] at h; clear h0
  by_cases h0 : w.extractLsb' 60 4 = 0x0
  · rw [if_pos h0] at h; cases h; simp
  rw [if_neg h0] at h; clear h0
  by_cases h0 : w.extractLsb' 60 4 = 0x1
  · rw [if_pos h0] at h; cases h; simp
  rw [if_neg h0] at h; clear h0
  by_cases h0 : w.extractLsb' 60 4 = 0x2
  · rw [if_pos h0] at h; cases h; simp
  rw [if_neg h0] at h; clear h0
  by_cases h0 : w.extractLsb' 60 4 = 0x3
  · rw [if_pos h0] at h; cases h; simp
  rw [if_neg h0] at h; clear h0
  by_cases h0 : w.extractLsb' 60 4 = 0x4
  · rw [if_pos h0] at h; cases h; simp
  rw [if_neg h0] at h; clear h0
  by_cases h0 : w.extractLsb' 60 4 = 0x5
  · rw [if_pos h0] at h; cases h; simp
  rw [if_neg h0] at h; clear h0
  by_cases h0 : w.extractLsb' 60 4 = 0x6
  · rw [if_pos h0] at h; cases h; simp
  rw [if_neg h0] at h; clear h0
  by_cases h0 : w.extractLsb' 60 4 = 0x7
  · rw [if_pos h0] at h; cases h; simp
  rw [if_neg h0] at h; clear h0
  by_cases h0 : w.extractLsb' 60 4 = 0x8
  · rw [if_pos h0] at h; cases h; simp
  rw [if_neg h0] at h; clear h0
  cases h; simp

/-- Ten bytes of the receive line decode to a row of a received frame or not at all. -/
theorem decode_rxFrame_cases {v : BitVec 80} {i : Instr} (h : decode (.rxFrame v) = .ok i) :
    ∃ c a p k, i = rxRow c a p k := by
  simp only [decode, decodeRxFrame] at h
  split at h
  · cases h; exact ⟨_, _, _, _, rfl⟩
  · cases h

end Sys2Proof
end

