-- ==== Sys2Proof/Laws/State.lean ====
section
/-! SUPPORT. One lemma for each field and each named update of the state, true by definition. -/

namespace Sys2Proof.Machine

/-! ### clearAvailable -/

@[simp] theorem clearAvailable_rxState (s : State) : (clearAvailable s).rxState = s.rxState := rfl
@[simp] theorem clearAvailable_rxf (s : State) : (clearAvailable s).rxf = s.rxf := rfl
@[simp] theorem clearAvailable_txb (s : State) : (clearAvailable s).txb = s.txb := rfl
@[simp] theorem clearAvailable_ackMode (s : State) : (clearAvailable s).ackMode = s.ackMode := rfl
@[simp] theorem clearAvailable_timeoutDuration (s : State) :
    (clearAvailable s).timeoutDuration = s.timeoutDuration := rfl
@[simp] theorem clearAvailable_pending (s : State) : (clearAvailable s).pending = s.pending := rfl
@[simp] theorem clearAvailable_ev (s : State) :
    (clearAvailable s).ev = { s.ev with available := false } := rfl
@[simp] theorem clearAvailable_tmPhase (s : State) : (clearAvailable s).tmPhase = s.tmPhase := rfl
@[simp] theorem clearAvailable_rpoll (s : State) : (clearAvailable s).rpoll = s.rpoll := rfl
@[simp] theorem clearAvailable_report (s : State) : (clearAvailable s).report = s.report := rfl
@[simp] theorem clearAvailable_accepted (s : State) :
    (clearAvailable s).accepted = s.accepted := rfl
@[simp] theorem clearAvailable_result (s : State) : (clearAvailable s).result = s.result := rfl
@[simp] theorem clearAvailable_codecResult (s : State) :
    (clearAvailable s).codecResult = s.codecResult := rfl
@[simp] theorem clearAvailable_rxq (s : State) : (clearAvailable s).rxq = s.rxq := rfl
@[simp] theorem clearAvailable_txlog (s : State) : (clearAvailable s).txlog = s.txlog := rfl
@[simp] theorem clearAvailable_clock (s : State) : (clearAvailable s).clock = s.clock := rfl
@[simp] theorem clearAvailable_moves (s : State) : (clearAvailable s).moves = s.moves := rfl
@[simp] theorem clearAvailable_draws (s : State) : (clearAvailable s).draws = s.draws := rfl

/-! ### clearPending -/

@[simp] theorem clearPending_rxState (s : State) : (clearPending s).rxState = s.rxState := rfl
@[simp] theorem clearPending_rxf (s : State) : (clearPending s).rxf = s.rxf := rfl
@[simp] theorem clearPending_txb (s : State) : (clearPending s).txb = s.txb := rfl
@[simp] theorem clearPending_ackMode (s : State) : (clearPending s).ackMode = s.ackMode := rfl
@[simp] theorem clearPending_timeoutDuration (s : State) :
    (clearPending s).timeoutDuration = s.timeoutDuration := rfl
@[simp] theorem clearPending_pending (s : State) :
    (clearPending s).pending = { s.pending with valid := false } := rfl
@[simp] theorem clearPending_ev (s : State) : (clearPending s).ev = s.ev := rfl
@[simp] theorem clearPending_tmPhase (s : State) : (clearPending s).tmPhase = s.tmPhase := rfl
@[simp] theorem clearPending_rpoll (s : State) : (clearPending s).rpoll = s.rpoll := rfl
@[simp] theorem clearPending_report (s : State) : (clearPending s).report = s.report := rfl
@[simp] theorem clearPending_accepted (s : State) : (clearPending s).accepted = s.accepted := rfl
@[simp] theorem clearPending_result (s : State) : (clearPending s).result = s.result := rfl
@[simp] theorem clearPending_codecResult (s : State) :
    (clearPending s).codecResult = s.codecResult := rfl
@[simp] theorem clearPending_rxq (s : State) : (clearPending s).rxq = s.rxq := rfl
@[simp] theorem clearPending_txlog (s : State) : (clearPending s).txlog = s.txlog := rfl
@[simp] theorem clearPending_clock (s : State) : (clearPending s).clock = s.clock := rfl
@[simp] theorem clearPending_moves (s : State) : (clearPending s).moves = s.moves := rfl
@[simp] theorem clearPending_draws (s : State) : (clearPending s).draws = s.draws := rfl

/-! ### setAckMode -/

@[simp] theorem setAckMode_rxState (a : Bool) (s : State) :
    (setAckMode a s).rxState = s.rxState := rfl
@[simp] theorem setAckMode_rxf (a : Bool) (s : State) : (setAckMode a s).rxf = s.rxf := rfl
@[simp] theorem setAckMode_txb (a : Bool) (s : State) : (setAckMode a s).txb = s.txb := rfl
@[simp] theorem setAckMode_ackMode (a : Bool) (s : State) : (setAckMode a s).ackMode = a := rfl
@[simp] theorem setAckMode_timeoutDuration (a : Bool) (s : State) :
    (setAckMode a s).timeoutDuration = s.timeoutDuration := rfl
@[simp] theorem setAckMode_pending (a : Bool) (s : State) :
    (setAckMode a s).pending = s.pending := rfl
@[simp] theorem setAckMode_ev (a : Bool) (s : State) : (setAckMode a s).ev = s.ev := rfl
@[simp] theorem setAckMode_tmPhase (a : Bool) (s : State) :
    (setAckMode a s).tmPhase = s.tmPhase := rfl
@[simp] theorem setAckMode_rpoll (a : Bool) (s : State) : (setAckMode a s).rpoll = s.rpoll := rfl
@[simp] theorem setAckMode_report (a : Bool) (s : State) : (setAckMode a s).report = s.report := rfl
@[simp] theorem setAckMode_accepted (a : Bool) (s : State) :
    (setAckMode a s).accepted = s.accepted := rfl
@[simp] theorem setAckMode_result (a : Bool) (s : State) : (setAckMode a s).result = s.result := rfl
@[simp] theorem setAckMode_codecResult (a : Bool) (s : State) :
    (setAckMode a s).codecResult = s.codecResult := rfl
@[simp] theorem setAckMode_rxq (a : Bool) (s : State) : (setAckMode a s).rxq = s.rxq := rfl
@[simp] theorem setAckMode_txlog (a : Bool) (s : State) : (setAckMode a s).txlog = s.txlog := rfl
@[simp] theorem setAckMode_clock (a : Bool) (s : State) : (setAckMode a s).clock = s.clock := rfl
@[simp] theorem setAckMode_moves (a : Bool) (s : State) : (setAckMode a s).moves = s.moves := rfl
@[simp] theorem setAckMode_draws (a : Bool) (s : State) : (setAckMode a s).draws = s.draws := rfl

/-! ### txWrite -/

@[simp] theorem txWrite_rxState (f : Frame) (s : State) : (txWrite f s).rxState = s.rxState := rfl
@[simp] theorem txWrite_rxf (f : Frame) (s : State) : (txWrite f s).rxf = s.rxf := rfl
@[simp] theorem txWrite_txb (f : Frame) (s : State) : (txWrite f s).txb = s.txb := rfl
@[simp] theorem txWrite_ackMode (f : Frame) (s : State) : (txWrite f s).ackMode = s.ackMode := rfl
@[simp] theorem txWrite_timeoutDuration (f : Frame) (s : State) :
    (txWrite f s).timeoutDuration = s.timeoutDuration := rfl
@[simp] theorem txWrite_pending (f : Frame) (s : State) : (txWrite f s).pending = s.pending := rfl
@[simp] theorem txWrite_ev (f : Frame) (s : State) : (txWrite f s).ev = s.ev := rfl
@[simp] theorem txWrite_tmPhase (f : Frame) (s : State) : (txWrite f s).tmPhase = s.tmPhase := rfl
@[simp] theorem txWrite_rpoll (f : Frame) (s : State) : (txWrite f s).rpoll = s.rpoll := rfl
@[simp] theorem txWrite_report (f : Frame) (s : State) : (txWrite f s).report = s.report := rfl
@[simp] theorem txWrite_accepted (f : Frame) (s : State) :
    (txWrite f s).accepted = s.accepted := rfl
@[simp] theorem txWrite_result (f : Frame) (s : State) : (txWrite f s).result = s.result := rfl
@[simp] theorem txWrite_codecResult (f : Frame) (s : State) :
    (txWrite f s).codecResult = s.codecResult := rfl
@[simp] theorem txWrite_rxq (f : Frame) (s : State) : (txWrite f s).rxq = s.rxq := rfl
@[simp] theorem txWrite_txlog (f : Frame) (s : State) :
    (txWrite f s).txlog = s.txlog ++ f.bytes := rfl
@[simp] theorem txWrite_clock (f : Frame) (s : State) : (txWrite f s).clock = s.clock := rfl
@[simp] theorem txWrite_moves (f : Frame) (s : State) : (txWrite f s).moves = s.moves := rfl
@[simp] theorem txWrite_draws (f : Frame) (s : State) : (txWrite f s).draws = s.draws := rfl

/-! ### storeEvent -/

@[simp] theorem storeEvent_rxState (k : EventKind) (p : U16) (c : Byte) (s : State) :
    (storeEvent k p c s).rxState = s.rxState := rfl
@[simp] theorem storeEvent_rxf (k : EventKind) (p : U16) (c : Byte) (s : State) :
    (storeEvent k p c s).rxf = s.rxf := rfl
@[simp] theorem storeEvent_txb (k : EventKind) (p : U16) (c : Byte) (s : State) :
    (storeEvent k p c s).txb = s.txb := rfl
@[simp] theorem storeEvent_ackMode (k : EventKind) (p : U16) (c : Byte) (s : State) :
    (storeEvent k p c s).ackMode = s.ackMode := rfl
@[simp] theorem storeEvent_timeoutDuration (k : EventKind) (p : U16) (c : Byte) (s : State) :
    (storeEvent k p c s).timeoutDuration = s.timeoutDuration := rfl
@[simp] theorem storeEvent_pending (k : EventKind) (p : U16) (c : Byte) (s : State) :
    (storeEvent k p c s).pending = s.pending := rfl
@[simp] theorem storeEvent_ev (k : EventKind) (p : U16) (c : Byte) (s : State) :
    (storeEvent k p c s).ev = { kind := k, parameter := p, command := c, available := true } := rfl
@[simp] theorem storeEvent_tmPhase (k : EventKind) (p : U16) (c : Byte) (s : State) :
    (storeEvent k p c s).tmPhase = s.tmPhase := rfl
@[simp] theorem storeEvent_rpoll (k : EventKind) (p : U16) (c : Byte) (s : State) :
    (storeEvent k p c s).rpoll = s.rpoll := rfl
@[simp] theorem storeEvent_report (k : EventKind) (p : U16) (c : Byte) (s : State) :
    (storeEvent k p c s).report = s.report := rfl
@[simp] theorem storeEvent_accepted (k : EventKind) (p : U16) (c : Byte) (s : State) :
    (storeEvent k p c s).accepted = s.accepted := rfl
@[simp] theorem storeEvent_result (k : EventKind) (p : U16) (c : Byte) (s : State) :
    (storeEvent k p c s).result = s.result := rfl
@[simp] theorem storeEvent_codecResult (k : EventKind) (p : U16) (c : Byte) (s : State) :
    (storeEvent k p c s).codecResult = s.codecResult := rfl
@[simp] theorem storeEvent_rxq (k : EventKind) (p : U16) (c : Byte) (s : State) :
    (storeEvent k p c s).rxq = s.rxq := rfl
@[simp] theorem storeEvent_txlog (k : EventKind) (p : U16) (c : Byte) (s : State) :
    (storeEvent k p c s).txlog = s.txlog := rfl
@[simp] theorem storeEvent_clock (k : EventKind) (p : U16) (c : Byte) (s : State) :
    (storeEvent k p c s).clock = s.clock := rfl
@[simp] theorem storeEvent_moves (k : EventKind) (p : U16) (c : Byte) (s : State) :
    (storeEvent k p c s).moves = s.moves := rfl
@[simp] theorem storeEvent_draws (k : EventKind) (p : U16) (c : Byte) (s : State) :
    (storeEvent k p c s).draws = s.draws := rfl

/-! ### takeFrameError -/

@[simp] theorem takeFrameError_rxState (e : ErrCause) (c : Option Byte) (s : State) :
    (takeFrameError e c s).rxState = if e = .timedOut then s.rxState else .idle := rfl
@[simp] theorem takeFrameError_rxf (e : ErrCause) (c : Option Byte) (s : State) :
    (takeFrameError e c s).rxf = s.rxf := rfl
@[simp] theorem takeFrameError_txb (e : ErrCause) (c : Option Byte) (s : State) :
    (takeFrameError e c s).txb = s.txb := rfl
@[simp] theorem takeFrameError_ackMode (e : ErrCause) (c : Option Byte) (s : State) :
    (takeFrameError e c s).ackMode = s.ackMode := rfl
@[simp] theorem takeFrameError_timeoutDuration (e : ErrCause) (c : Option Byte) (s : State) :
    (takeFrameError e c s).timeoutDuration = s.timeoutDuration := rfl
@[simp] theorem takeFrameError_pending (e : ErrCause) (c : Option Byte) (s : State) :
    (takeFrameError e c s).pending =
      if e = .timedOut then { s.pending with valid := false } else s.pending := rfl
@[simp] theorem takeFrameError_ev (e : ErrCause) (c : Option Byte) (s : State) :
    (takeFrameError e c s).ev =
      { kind := errKind e, parameter := Config.ERR_PARAM e, command := c.getD s.ev.command, available := true } := rfl
@[simp] theorem takeFrameError_tmPhase (e : ErrCause) (c : Option Byte) (s : State) :
    (takeFrameError e c s).tmPhase = s.tmPhase := rfl
@[simp] theorem takeFrameError_rpoll (e : ErrCause) (c : Option Byte) (s : State) :
    (takeFrameError e c s).rpoll = s.rpoll := rfl
@[simp] theorem takeFrameError_report (e : ErrCause) (c : Option Byte) (s : State) :
    (takeFrameError e c s).report = errReport e := rfl
@[simp] theorem takeFrameError_accepted (e : ErrCause) (c : Option Byte) (s : State) :
    (takeFrameError e c s).accepted = s.accepted := rfl
@[simp] theorem takeFrameError_result (e : ErrCause) (c : Option Byte) (s : State) :
    (takeFrameError e c s).result = s.result := rfl
@[simp] theorem takeFrameError_codecResult (e : ErrCause) (c : Option Byte) (s : State) :
    (takeFrameError e c s).codecResult = s.codecResult := rfl
@[simp] theorem takeFrameError_rxq (e : ErrCause) (c : Option Byte) (s : State) :
    (takeFrameError e c s).rxq = s.rxq := rfl
@[simp] theorem takeFrameError_txlog (e : ErrCause) (c : Option Byte) (s : State) :
    (takeFrameError e c s).txlog = s.txlog := rfl
@[simp] theorem takeFrameError_clock (e : ErrCause) (c : Option Byte) (s : State) :
    (takeFrameError e c s).clock = s.clock := rfl
@[simp] theorem takeFrameError_moves (e : ErrCause) (c : Option Byte) (s : State) :
    (takeFrameError e c s).moves = s.moves := rfl
@[simp] theorem takeFrameError_draws (e : ErrCause) (c : Option Byte) (s : State) :
    (takeFrameError e c s).draws = s.draws := rfl

/-! ### notAccepted -/

@[simp] theorem notAccepted_rxState (s : State) : (notAccepted s).rxState = s.rxState := rfl
@[simp] theorem notAccepted_rxf (s : State) : (notAccepted s).rxf = s.rxf := rfl
@[simp] theorem notAccepted_txb (s : State) : (notAccepted s).txb = s.txb := rfl
@[simp] theorem notAccepted_ackMode (s : State) : (notAccepted s).ackMode = s.ackMode := rfl
@[simp] theorem notAccepted_timeoutDuration (s : State) :
    (notAccepted s).timeoutDuration = s.timeoutDuration := rfl
@[simp] theorem notAccepted_pending (s : State) : (notAccepted s).pending = s.pending := rfl
@[simp] theorem notAccepted_ev (s : State) : (notAccepted s).ev = s.ev := rfl
@[simp] theorem notAccepted_tmPhase (s : State) : (notAccepted s).tmPhase = s.tmPhase := rfl
@[simp] theorem notAccepted_rpoll (s : State) : (notAccepted s).rpoll = s.rpoll := rfl
@[simp] theorem notAccepted_report (s : State) : (notAccepted s).report = s.report := rfl
@[simp] theorem notAccepted_accepted (s : State) : (notAccepted s).accepted = false := rfl
@[simp] theorem notAccepted_result (s : State) : (notAccepted s).result = s.result := rfl
@[simp] theorem notAccepted_codecResult (s : State) :
    (notAccepted s).codecResult = s.codecResult := rfl
@[simp] theorem notAccepted_rxq (s : State) : (notAccepted s).rxq = s.rxq := rfl
@[simp] theorem notAccepted_txlog (s : State) : (notAccepted s).txlog = s.txlog := rfl
@[simp] theorem notAccepted_clock (s : State) : (notAccepted s).clock = s.clock := rfl
@[simp] theorem notAccepted_moves (s : State) : (notAccepted s).moves = s.moves := rfl
@[simp] theorem notAccepted_draws (s : State) : (notAccepted s).draws = s.draws := rfl

/-! ### yieldResult -/

@[simp] theorem yieldResult_rxState (r : HostResult) (s : State) :
    (yieldResult r s).rxState = s.rxState := rfl
@[simp] theorem yieldResult_rxf (r : HostResult) (s : State) : (yieldResult r s).rxf = s.rxf := rfl
@[simp] theorem yieldResult_txb (r : HostResult) (s : State) : (yieldResult r s).txb = s.txb := rfl
@[simp] theorem yieldResult_ackMode (r : HostResult) (s : State) :
    (yieldResult r s).ackMode = s.ackMode := rfl
@[simp] theorem yieldResult_timeoutDuration (r : HostResult) (s : State) :
    (yieldResult r s).timeoutDuration = s.timeoutDuration := rfl
@[simp] theorem yieldResult_pending (r : HostResult) (s : State) :
    (yieldResult r s).pending = s.pending := rfl
@[simp] theorem yieldResult_ev (r : HostResult) (s : State) : (yieldResult r s).ev = s.ev := rfl
@[simp] theorem yieldResult_tmPhase (r : HostResult) (s : State) :
    (yieldResult r s).tmPhase = s.tmPhase := rfl
@[simp] theorem yieldResult_rpoll (r : HostResult) (s : State) :
    (yieldResult r s).rpoll = s.rpoll := rfl
@[simp] theorem yieldResult_report (r : HostResult) (s : State) :
    (yieldResult r s).report = s.report := rfl
@[simp] theorem yieldResult_accepted (r : HostResult) (s : State) :
    (yieldResult r s).accepted = s.accepted := rfl
@[simp] theorem yieldResult_result (r : HostResult) (s : State) :
    (yieldResult r s).result = r := rfl
@[simp] theorem yieldResult_codecResult (r : HostResult) (s : State) :
    (yieldResult r s).codecResult = s.codecResult := rfl
@[simp] theorem yieldResult_rxq (r : HostResult) (s : State) : (yieldResult r s).rxq = s.rxq := rfl
@[simp] theorem yieldResult_txlog (r : HostResult) (s : State) :
    (yieldResult r s).txlog = s.txlog := rfl
@[simp] theorem yieldResult_clock (r : HostResult) (s : State) :
    (yieldResult r s).clock = s.clock := rfl
@[simp] theorem yieldResult_moves (r : HostResult) (s : State) :
    (yieldResult r s).moves = s.moves := rfl
@[simp] theorem yieldResult_draws (r : HostResult) (s : State) :
    (yieldResult r s).draws = s.draws := rfl

/-! ### finish -/

@[simp] theorem finish_rxState (r : HostResult) (s : State) :
    (finish r s).rxState = s.rxState := rfl
@[simp] theorem finish_rxf (r : HostResult) (s : State) : (finish r s).rxf = s.rxf := rfl
@[simp] theorem finish_txb (r : HostResult) (s : State) : (finish r s).txb = s.txb := rfl
@[simp] theorem finish_ackMode (r : HostResult) (s : State) :
    (finish r s).ackMode = s.ackMode := rfl
@[simp] theorem finish_timeoutDuration (r : HostResult) (s : State) :
    (finish r s).timeoutDuration = s.timeoutDuration := rfl
@[simp] theorem finish_pending (r : HostResult) (s : State) :
    (finish r s).pending = s.pending := rfl
@[simp] theorem finish_ev (r : HostResult) (s : State) : (finish r s).ev = s.ev := rfl
@[simp] theorem finish_tmPhase (r : HostResult) (s : State) : (finish r s).tmPhase = .idle := rfl
@[simp] theorem finish_rpoll (r : HostResult) (s : State) : (finish r s).rpoll = .none := rfl
@[simp] theorem finish_report (r : HostResult) (s : State) : (finish r s).report = s.report := rfl
@[simp] theorem finish_accepted (r : HostResult) (s : State) :
    (finish r s).accepted = s.accepted := rfl
@[simp] theorem finish_result (r : HostResult) (s : State) : (finish r s).result = r := rfl
@[simp] theorem finish_codecResult (r : HostResult) (s : State) :
    (finish r s).codecResult = s.codecResult := rfl
@[simp] theorem finish_rxq (r : HostResult) (s : State) : (finish r s).rxq = s.rxq := rfl
@[simp] theorem finish_txlog (r : HostResult) (s : State) : (finish r s).txlog = s.txlog := rfl
@[simp] theorem finish_clock (r : HostResult) (s : State) : (finish r s).clock = s.clock := rfl
@[simp] theorem finish_moves (r : HostResult) (s : State) : (finish r s).moves = s.moves := rfl
@[simp] theorem finish_draws (r : HostResult) (s : State) : (finish r s).draws = s.draws := rfl

/-! ### beginPoll -/

@[simp] theorem beginPoll_rxState (s : State) : (beginPoll s).rxState = s.rxState := rfl
@[simp] theorem beginPoll_rxf (s : State) : (beginPoll s).rxf = s.rxf := rfl
@[simp] theorem beginPoll_txb (s : State) : (beginPoll s).txb = s.txb := rfl
@[simp] theorem beginPoll_ackMode (s : State) : (beginPoll s).ackMode = s.ackMode := rfl
@[simp] theorem beginPoll_timeoutDuration (s : State) :
    (beginPoll s).timeoutDuration = s.timeoutDuration := rfl
@[simp] theorem beginPoll_pending (s : State) : (beginPoll s).pending = s.pending := rfl
@[simp] theorem beginPoll_ev (s : State) : (beginPoll s).ev = s.ev := rfl
@[simp] theorem beginPoll_tmPhase (s : State) : (beginPoll s).tmPhase = s.tmPhase := rfl
@[simp] theorem beginPoll_rpoll (s : State) : (beginPoll s).rpoll = .draining := rfl
@[simp] theorem beginPoll_report (s : State) : (beginPoll s).report = .noData := rfl
@[simp] theorem beginPoll_accepted (s : State) : (beginPoll s).accepted = s.accepted := rfl
@[simp] theorem beginPoll_result (s : State) : (beginPoll s).result = s.result := rfl
@[simp] theorem beginPoll_codecResult (s : State) : (beginPoll s).codecResult = s.codecResult := rfl
@[simp] theorem beginPoll_rxq (s : State) : (beginPoll s).rxq = s.rxq := rfl
@[simp] theorem beginPoll_txlog (s : State) : (beginPoll s).txlog = s.txlog := rfl
@[simp] theorem beginPoll_clock (s : State) : (beginPoll s).clock = s.clock := rfl
@[simp] theorem beginPoll_moves (s : State) : (beginPoll s).moves = s.moves := rfl
@[simp] theorem beginPoll_draws (s : State) : (beginPoll s).draws = s.draws := rfl

/-! ### beginWrite -/

@[simp] theorem beginWrite_rxState (o : Owner) (a : Bool) (c : Byte) (g : U16) (s : State) :
    (beginWrite o a c g s).rxState = s.rxState := rfl
@[simp] theorem beginWrite_rxf (o : Owner) (a : Bool) (c : Byte) (g : U16) (s : State) :
    (beginWrite o a c g s).rxf = s.rxf := rfl
@[simp] theorem beginWrite_txb (o : Owner) (a : Bool) (c : Byte) (g : U16) (s : State) :
    (beginWrite o a c g s).txb = encodeFrame c (ackByte a) g := rfl
@[simp] theorem beginWrite_ackMode (o : Owner) (a : Bool) (c : Byte) (g : U16) (s : State) :
    (beginWrite o a c g s).ackMode = s.ackMode := rfl
@[simp] theorem beginWrite_timeoutDuration (o : Owner) (a : Bool) (c : Byte) (g : U16) (s : State) :
    (beginWrite o a c g s).timeoutDuration = s.timeoutDuration := rfl
@[simp] theorem beginWrite_pending (o : Owner) (a : Bool) (c : Byte) (g : U16) (s : State) :
    (beginWrite o a c g s).pending = s.pending := rfl
@[simp] theorem beginWrite_ev (o : Owner) (a : Bool) (c : Byte) (g : U16) (s : State) :
    (beginWrite o a c g s).ev = s.ev := rfl
@[simp] theorem beginWrite_tmPhase (o : Owner) (a : Bool) (c : Byte) (g : U16) (s : State) :
    (beginWrite o a c g s).tmPhase = .sendWrite o a c g := rfl
@[simp] theorem beginWrite_rpoll (o : Owner) (a : Bool) (c : Byte) (g : U16) (s : State) :
    (beginWrite o a c g s).rpoll = .none := rfl
@[simp] theorem beginWrite_report (o : Owner) (a : Bool) (c : Byte) (g : U16) (s : State) :
    (beginWrite o a c g s).report = s.report := rfl
@[simp] theorem beginWrite_accepted (o : Owner) (a : Bool) (c : Byte) (g : U16) (s : State) :
    (beginWrite o a c g s).accepted = s.accepted := rfl
@[simp] theorem beginWrite_result (o : Owner) (a : Bool) (c : Byte) (g : U16) (s : State) :
    (beginWrite o a c g s).result = s.result := rfl
@[simp] theorem beginWrite_codecResult (o : Owner) (a : Bool) (c : Byte) (g : U16) (s : State) :
    (beginWrite o a c g s).codecResult = s.codecResult := rfl
@[simp] theorem beginWrite_rxq (o : Owner) (a : Bool) (c : Byte) (g : U16) (s : State) :
    (beginWrite o a c g s).rxq = s.rxq := rfl
@[simp] theorem beginWrite_txlog (o : Owner) (a : Bool) (c : Byte) (g : U16) (s : State) :
    (beginWrite o a c g s).txlog = s.txlog := rfl
@[simp] theorem beginWrite_clock (o : Owner) (a : Bool) (c : Byte) (g : U16) (s : State) :
    (beginWrite o a c g s).clock = s.clock := rfl
@[simp] theorem beginWrite_moves (o : Owner) (a : Bool) (c : Byte) (g : U16) (s : State) :
    (beginWrite o a c g s).moves = s.moves := rfl
@[simp] theorem beginWrite_draws (o : Owner) (a : Bool) (c : Byte) (g : U16) (s : State) :
    (beginWrite o a c g s).draws = s.draws := rfl

/-! ### recordPending -/

@[simp] theorem recordPending_rxState (c : Byte) (g : U16) (s : State) :
    (recordPending c g s).rxState = s.rxState := rfl
@[simp] theorem recordPending_rxf (c : Byte) (g : U16) (s : State) :
    (recordPending c g s).rxf = s.rxf := rfl
@[simp] theorem recordPending_txb (c : Byte) (g : U16) (s : State) :
    (recordPending c g s).txb = s.txb := rfl
@[simp] theorem recordPending_ackMode (c : Byte) (g : U16) (s : State) :
    (recordPending c g s).ackMode = s.ackMode := rfl
@[simp] theorem recordPending_timeoutDuration (c : Byte) (g : U16) (s : State) :
    (recordPending c g s).timeoutDuration = s.timeoutDuration := rfl
@[simp] theorem recordPending_pending (c : Byte) (g : U16) (s : State) :
    (recordPending c g s).pending =
      { valid := true, command := c, argument := g, requiresAck := true, sentAt := s.clock, deadline := s.timeoutDuration } := rfl
@[simp] theorem recordPending_ev (c : Byte) (g : U16) (s : State) :
    (recordPending c g s).ev = s.ev := rfl
@[simp] theorem recordPending_tmPhase (c : Byte) (g : U16) (s : State) :
    (recordPending c g s).tmPhase = s.tmPhase := rfl
@[simp] theorem recordPending_rpoll (c : Byte) (g : U16) (s : State) :
    (recordPending c g s).rpoll = s.rpoll := rfl
@[simp] theorem recordPending_report (c : Byte) (g : U16) (s : State) :
    (recordPending c g s).report = s.report := rfl
@[simp] theorem recordPending_accepted (c : Byte) (g : U16) (s : State) :
    (recordPending c g s).accepted = s.accepted := rfl
@[simp] theorem recordPending_result (c : Byte) (g : U16) (s : State) :
    (recordPending c g s).result = s.result := rfl
@[simp] theorem recordPending_codecResult (c : Byte) (g : U16) (s : State) :
    (recordPending c g s).codecResult = s.codecResult := rfl
@[simp] theorem recordPending_rxq (c : Byte) (g : U16) (s : State) :
    (recordPending c g s).rxq = s.rxq := rfl
@[simp] theorem recordPending_txlog (c : Byte) (g : U16) (s : State) :
    (recordPending c g s).txlog = s.txlog := rfl
@[simp] theorem recordPending_clock (c : Byte) (g : U16) (s : State) :
    (recordPending c g s).clock = s.clock := rfl
@[simp] theorem recordPending_moves (c : Byte) (g : U16) (s : State) :
    (recordPending c g s).moves = s.moves := rfl
@[simp] theorem recordPending_draws (c : Byte) (g : U16) (s : State) :
    (recordPending c g s).draws = s.draws := rfl

/-! ### startWait -/

@[simp] theorem startWait_rxState (o : Owner) (d : Time) (s : State) :
    (startWait o d s).rxState = s.rxState := rfl
@[simp] theorem startWait_rxf (o : Owner) (d : Time) (s : State) :
    (startWait o d s).rxf = s.rxf := rfl
@[simp] theorem startWait_txb (o : Owner) (d : Time) (s : State) :
    (startWait o d s).txb = s.txb := rfl
@[simp] theorem startWait_ackMode (o : Owner) (d : Time) (s : State) :
    (startWait o d s).ackMode = s.ackMode := rfl
@[simp] theorem startWait_timeoutDuration (o : Owner) (d : Time) (s : State) :
    (startWait o d s).timeoutDuration = s.timeoutDuration := rfl
@[simp] theorem startWait_pending (o : Owner) (d : Time) (s : State) :
    (startWait o d s).pending = s.pending := rfl
@[simp] theorem startWait_ev (o : Owner) (d : Time) (s : State) : (startWait o d s).ev = s.ev := rfl
@[simp] theorem startWait_tmPhase (o : Owner) (d : Time) (s : State) :
    (startWait o d s).tmPhase = .waitEvent o s.clock d := rfl
@[simp] theorem startWait_rpoll (o : Owner) (d : Time) (s : State) :
    (startWait o d s).rpoll = .draining := rfl
@[simp] theorem startWait_report (o : Owner) (d : Time) (s : State) :
    (startWait o d s).report = .noData := rfl
@[simp] theorem startWait_accepted (o : Owner) (d : Time) (s : State) :
    (startWait o d s).accepted = s.accepted := rfl
@[simp] theorem startWait_result (o : Owner) (d : Time) (s : State) :
    (startWait o d s).result = s.result := rfl
@[simp] theorem startWait_codecResult (o : Owner) (d : Time) (s : State) :
    (startWait o d s).codecResult = s.codecResult := rfl
@[simp] theorem startWait_rxq (o : Owner) (d : Time) (s : State) :
    (startWait o d s).rxq = s.rxq := rfl
@[simp] theorem startWait_txlog (o : Owner) (d : Time) (s : State) :
    (startWait o d s).txlog = s.txlog := rfl
@[simp] theorem startWait_clock (o : Owner) (d : Time) (s : State) :
    (startWait o d s).clock = s.clock := rfl
@[simp] theorem startWait_moves (o : Owner) (d : Time) (s : State) :
    (startWait o d s).moves = s.moves := rfl
@[simp] theorem startWait_draws (o : Owner) (d : Time) (s : State) :
    (startWait o d s).draws = s.draws := rfl

/-! ### byteStep -/

@[simp] theorem byteStep_rxState (r : RxState) (y : PollResult) (s : State) :
    (byteStep r y s).rxState = r := rfl
@[simp] theorem byteStep_rxf (r : RxState) (y : PollResult) (s : State) :
    (byteStep r y s).rxf = s.rxf := rfl
@[simp] theorem byteStep_txb (r : RxState) (y : PollResult) (s : State) :
    (byteStep r y s).txb = s.txb := rfl
@[simp] theorem byteStep_ackMode (r : RxState) (y : PollResult) (s : State) :
    (byteStep r y s).ackMode = s.ackMode := rfl
@[simp] theorem byteStep_timeoutDuration (r : RxState) (y : PollResult) (s : State) :
    (byteStep r y s).timeoutDuration = s.timeoutDuration := rfl
@[simp] theorem byteStep_pending (r : RxState) (y : PollResult) (s : State) :
    (byteStep r y s).pending = s.pending := rfl
@[simp] theorem byteStep_ev (r : RxState) (y : PollResult) (s : State) :
    (byteStep r y s).ev = s.ev := rfl
@[simp] theorem byteStep_tmPhase (r : RxState) (y : PollResult) (s : State) :
    (byteStep r y s).tmPhase = s.tmPhase := rfl
@[simp] theorem byteStep_rpoll (r : RxState) (y : PollResult) (s : State) :
    (byteStep r y s).rpoll = s.rpoll := rfl
@[simp] theorem byteStep_report (r : RxState) (y : PollResult) (s : State) :
    (byteStep r y s).report = y := rfl
@[simp] theorem byteStep_accepted (r : RxState) (y : PollResult) (s : State) :
    (byteStep r y s).accepted = s.accepted := rfl
@[simp] theorem byteStep_result (r : RxState) (y : PollResult) (s : State) :
    (byteStep r y s).result = s.result := rfl
@[simp] theorem byteStep_codecResult (r : RxState) (y : PollResult) (s : State) :
    (byteStep r y s).codecResult = s.codecResult := rfl
@[simp] theorem byteStep_rxq (r : RxState) (y : PollResult) (s : State) :
    (byteStep r y s).rxq = s.rxq := rfl
@[simp] theorem byteStep_txlog (r : RxState) (y : PollResult) (s : State) :
    (byteStep r y s).txlog = s.txlog := rfl
@[simp] theorem byteStep_clock (r : RxState) (y : PollResult) (s : State) :
    (byteStep r y s).clock = s.clock := rfl
@[simp] theorem byteStep_moves (r : RxState) (y : PollResult) (s : State) :
    (byteStep r y s).moves = s.moves := rfl
@[simp] theorem byteStep_draws (r : RxState) (y : PollResult) (s : State) :
    (byteStep r y s).draws = s.draws := rfl

/-! ### hardReset -/

@[simp] theorem hardReset_rxState (s : State) : (hardReset s).rxState = .idle := rfl
@[simp] theorem hardReset_ackMode (s : State) : (hardReset s).ackMode = false := rfl
@[simp] theorem hardReset_timeoutDuration (s : State) : (hardReset s).timeoutDuration = Config.TIMEOUT_DEFAULT := rfl
@[simp] theorem hardReset_tmPhase (s : State) : (hardReset s).tmPhase = .idle := rfl
@[simp] theorem hardReset_rpoll (s : State) : (hardReset s).rpoll = .none := rfl
@[simp] theorem hardReset_report (s : State) : (hardReset s).report = .noData := rfl
@[simp] theorem hardReset_accepted (s : State) : (hardReset s).accepted = false := rfl
@[simp] theorem hardReset_result (s : State) : (hardReset s).result = .none := rfl
@[simp] theorem hardReset_codecResult (s : State) : (hardReset s).codecResult = .none := rfl
@[simp] theorem hardReset_rxq (s : State) : (hardReset s).rxq = s.rxq := rfl
@[simp] theorem hardReset_txlog (s : State) : (hardReset s).txlog = s.txlog := rfl
@[simp] theorem hardReset_clock (s : State) : (hardReset s).clock = s.clock := rfl
@[simp] theorem hardReset_moves (s : State) : (hardReset s).moves = s.moves := rfl
@[simp] theorem hardReset_draws (s : State) : (hardReset s).draws = s.draws + 1 := rfl
@[simp] theorem hardReset_pending_valid (s : State) : (hardReset s).pending.valid = false := rfl
@[simp] theorem hardReset_ev_available (s : State) : (hardReset s).ev.available = false := rfl

end Sys2Proof.Machine
end

