-- ==== Sys2Proof/Laws/Ops.lean ====
section
/-! SUPPORT. What each shared operation can do, said once. -/

namespace Sys2Proof.Machine

theorem whenIdle_idle {s : State} (f : State → State) (h : s.tmPhase = .idle) :
    whenIdle f s = f { s with accepted := true } := if_pos h

theorem whenIdle_busy {s : State} (f : State → State) (h : s.tmPhase ≠ .idle) :
    whenIdle f s = notAccepted s := if_neg h

/-- SEND blocks or begins its write (43_transaction.md R140). -/
theorem startSend_cases (o : Owner) (c : Byte) (g : U16) (a : Bool) (s : State) :
    (a = true ∧ s.pending.valid = true ∧
        startSend o c g a s = beginPoll { s with tmPhase := .sendBlocked o c g }) ∨
      ((a = false ∨ s.pending.valid = false) ∧ startSend o c g a s = beginWrite o a c g s) := by
  unfold startSend
  cases a <;> cases s.pending.valid <;> simp

/-- The time-out check fires or not (41_receiver.md R104). -/
theorem timeoutCheck_cases (s : State) :
    (timeoutDue s = true ∧
        timeoutCheck s = { takeFrameError .timedOut none s with rpoll := .finished }) ∨
      (timeoutDue s = false ∧ timeoutCheck s = { s with report := .noData, rpoll := .finished }) := by
  unfold timeoutCheck
  cases timeoutDue s <;> simp

/-- What an outcome of CLASSIFY writes (42_classifier.md R134 to R137). -/
theorem applyOutcome_cases (o : ClassOutcome) (c : Byte) (p : U16) (s : State) :
    (∃ k, o = .event k ∧ applyOutcome o c p s = storeEvent k p c s) ∨
      (o = .ack ∧ applyOutcome o c p s = clearPending s) ∨
      (o = .noMatch ∧ applyOutcome o c p s = s) ∨
      (o = .fail ∧ applyOutcome o c p s = takeFrameError .unlistedCommand (some c) s) := by
  cases o <;> simp [applyOutcome]

/-- A received frame is applied or is a checksum error. -/
theorem receiveFrame_cases (o : ClassOutcome) (c a : Byte) (p k : U16) (s : State) :
    (k = frameChecksum c a p ∧ receiveFrame o c a p k s = applyOutcome o c p s) ∨
      (k ≠ frameChecksum c a p ∧ receiveFrame o c a p k s = takeFrameError .badChecksum none s) := by
  unfold receiveFrame
  by_cases h : k = frameChecksum c a p <;> simp [h]

/-- SEND returns to the host, or to the WAITEV of INIT or QUERY. -/
theorem sendReturn_cases (o : Owner) (s : State) :
    (o = .direct ∧ sendReturn o s = finish .void s) ∨
      (∃ d, o ≠ .direct ∧ sendReturn o s = { s with tmPhase := .waitStart o d }) := by
  cases o <;> simp [sendReturn]

/-- QUERY ends with a read or with -1 (44_driver.md R165). -/
theorem finishQuery_cases (arrived : Bool) (s : State) :
    (arrived = true ∧
        finishQuery arrived s =
          finish (.query (if s.ev.kind = .feedBack then zext32 s.ev.parameter else -1))
            (clearAvailable s)) ∨
      (arrived = false ∧ finishQuery arrived s = finish (.query (-1)) s) := by
  cases arrived <;> simp [finishQuery]

/-- WAITEV returns to the host, to INIT or to QUERY. -/
theorem waitReturn_cases (o : Owner) (arrived : Bool) (s : State) :
    (o = .direct ∧ waitReturn o arrived s = finish (.bit arrived) s) ∨
      (o = .init ∧
        waitReturn o arrived s = { s with tmPhase := .initSettle arrived s.clock, rpoll := .none }) ∨
      (o = .query ∧ waitReturn o arrived s = finishQuery arrived s) := by
  cases o <;> simp [waitReturn, now]

/-- POLL yields to the operation it runs in. -/
theorem pollReturn_cases (s : State) :
    (s.tmPhase = .poll ∧ pollReturn s = finish (.bit s.ev.available) s) ∨
      (∃ o c g, s.tmPhase = .sendBlocked o c g ∧
        ((s.pending.valid = true ∧ pollReturn s = beginPoll s) ∨
          (s.pending.valid = false ∧ pollReturn s = beginWrite o true c g s))) ∨
      (∃ o t0 d, s.tmPhase = .waitEvent o t0 d ∧
        ((s.ev.available = true ∧ pollReturn s = waitReturn o true s) ∨
          (s.ev.available = false ∧ hasElapsed t0 d s = true ∧ pollReturn s = waitReturn o false s) ∨
          (s.ev.available = false ∧ hasElapsed t0 d s = false ∧ pollReturn s = beginPoll s))) ∨
      (s.tmPhase.polls = false ∧ pollReturn s = { s with rpoll := .none }) := by
  unfold pollReturn
  cases h : s.tmPhase with
  | sendBlocked o c g => cases hv : s.pending.valid <;> simp
  | waitEvent o t0 d =>
    cases ha : s.ev.available <;> cases he : hasElapsed t0 d s <;> simp [he]
  | _ => simp [TmPhase.polls]

/-- After a byte step the poll goes on, has a frame to classify, or has taken an error. -/
theorem afterByte_cases (s : State) :
    (∃ c p, s.report = .frameReady c p ∧ afterByte s = { s with rpoll := .frame }) ∨
      (∃ e, s.report = .malformed e ∧
        afterByte s = { takeFrameError e none s with rpoll := .finished }) ∨
      ((s.report = .noData ∨ s.report = .timedOut) ∧ afterByte s = s) := by
  unfold afterByte
  cases h : s.report <;> simp

/-- Taking an error: TimedOut keeps the receiver and clears the pending transaction, every other cause puts
the receiver in Idle and keeps the transaction (60_exceptions.md R184). -/
theorem takeFrameError_cases (e : ErrCause) (c : Option Byte) (s : State) :
    (e = .timedOut ∧ takeFrameError e c s =
        { s with
          report := .timedOut, pending := { s.pending with valid := false }
          ev := { kind := .timeOut, parameter := Config.ERR_PARAM .timedOut,
                  command := c.getD s.ev.command, available := true } }) ∨
      (e ≠ .timedOut ∧ takeFrameError e c s =
        { s with
          report := .malformed e, rxState := .idle
          ev := { kind := .wrongStack, parameter := Config.ERR_PARAM e,
                  command := c.getD s.ev.command, available := true } }) := by
  cases e <;> simp [takeFrameError, errReport, errKind]

/-- After the write SEND records its transaction or waits QUIESCE (43_transaction.md R143, R144). -/
theorem afterWrite_cases (s : State) :
    (∃ o c g, s.tmPhase = .sendWrite o true c g ∧ afterWrite s = { s with tmPhase := .sendRecord o c g }) ∨
      (∃ o c g, s.tmPhase = .sendWrite o false c g ∧
        afterWrite s = { s with tmPhase := .sendQuiesce o s.clock }) ∨
      ((∀ o a c g, s.tmPhase ≠ .sendWrite o a c g) ∧ afterWrite s = s) := by
  unfold afterWrite
  cases h : s.tmPhase with
  | sendWrite o a c g => cases a <;> simp [now]
  | _ => simp

/-- One step of the operation in progress outside a poll, by its phase. -/
theorem phaseStep_cases (s : State) :
    (s.tmPhase = .idle ∧ phaseStep s = s) ∨
      (s.tmPhase.polls = true ∧ phaseStep s = beginPoll s) ∨
      (∃ o a c g, s.tmPhase = .sendWrite o a c g ∧ phaseStep s = afterWrite (txWrite s.txb s)) ∨
      (∃ o c g, s.tmPhase = .sendRecord o c g ∧ phaseStep s = sendReturn o (recordPending c g s)) ∨
      (∃ o t0, s.tmPhase = .sendQuiesce o t0 ∧
        ((hasElapsed t0 Config.QUIESCE s = true ∧ phaseStep s = sendReturn o s) ∨
          (hasElapsed t0 Config.QUIESCE s = false ∧ phaseStep s = s))) ∨
      (∃ o d, s.tmPhase = .waitStart o d ∧ phaseStep s = startWait o d s) ∨
      (∃ b t0, s.tmPhase = .initSettle b t0 ∧
        ((hasElapsed t0 Config.SETTLE_DELAY s = true ∧ phaseStep s = finishInit b s) ∨
          (hasElapsed t0 Config.SETTLE_DELAY s = false ∧ phaseStep s = s))) := by
  unfold phaseStep
  cases h : s.tmPhase with
  | sendQuiesce o t0 => cases hq : hasElapsed t0 Config.QUIESCE s <;> simp [TmPhase.polls, hq]
  | initSettle b t0 => cases hq : hasElapsed t0 Config.SETTLE_DELAY s <;> simp [TmPhase.polls, hq]
  | _ => simp [TmPhase.polls]

/-- One step of the block that runs no instruction, by the place in the poll. -/
theorem ownStep_cases (s : State) :
    (s.rpoll = .none ∧ ownStep s = phaseStep s) ∨ (s.rpoll = .draining ∧ ownStep s = timeoutCheck s) ∨
      (s.rpoll = .frame ∧ ownStep s = { s with rpoll := .finished }) ∨
      (s.rpoll = .finished ∧ ownStep s = pollReturn s) := by
  unfold ownStep
  cases h : s.rpoll <;> simp

/-- A move that runs no instruction, by its kind. -/
theorem otherMove_cases (s : State) :
    (∃ s', takeMove s = (.block, s') ∧ otherMove s = ownStep s') ∨
      (∃ b s', takeMove s = (.envRx b, s') ∧ otherMove s = { s' with rxq := s'.rxq ++ [b] }) ∨
      (∃ d s', takeMove s = (.envTick d, s') ∧ otherMove s = { s' with clock := s'.clock + d }) ∨
      (∃ n s', takeMove s = (.envDrop n, s') ∧ otherMove s = { s' with rxq := s'.rxq.eraseIdx n }) ∨
      (∃ h s', takeMove s = (.host h, s') ∧ otherMove s = notAccepted s') ∨
      (∃ fn v s', takeMove s = (.codec fn v, s') ∧ otherMove s = s') ∨
      (∃ s', takeMove s = (.reset, s') ∧ otherMove s = hardReset s') := by
  unfold otherMove
  rcases h : takeMove s with ⟨m, s'⟩
  cases m <;> simp

/-- The next move is the head of the moves to come, or the block's. -/
theorem takeMove_cases (s : State) :
    (s.moves = [] ∧ takeMove s = (.block, s)) ∨
      (∃ m r, s.moves = m :: r ∧ takeMove s = (m, { s with moves := r })) := by
  unfold takeMove
  cases h : s.moves <;> simp

/-- One step runs a fetched instruction or makes another move. -/
theorem step_cases {s t : State} (h : step s = .next t) :
    (∃ src i s' u, fetch s = .run src i s' ∧ exec i s' = .next u ∧ t = commit src u) ∨
      (fetch s = .other ∧ t = otherMove s) := by
  unfold step at h
  cases hf : fetch s with
  | other => simp [hf] at h; exact .inr ⟨rfl, h.symm⟩
  | run src i s' =>
    simp only [hf] at h
    cases he : exec i s' with
    | next u => simp [he, onNext] at h; exact .inl ⟨src, i, s', u, rfl, he, h.symm⟩
    | fault r => exact nomatch r
    | refused r => simp [he, onNext] at h

/-- A word that is fetched and decodes is run. -/
theorem fetch_run {s s' : State} {src : Source} {w : Code} {i : Instr}
    (hw : fetchWord s = some (src, w, s')) (hd : decode w = .ok i) : fetch s = .run src i s' := by
  simp [fetch, hw, hd]

/-- Where a fetched instruction came from: the port, a codec function, the head of RXQ inside a poll, the
assembled frame, the transmit buffer. -/
theorem fetch_cases {s s' : State} {src : Source} {i : Instr} (h : fetch s = .run src i s') :
    (∃ w, src = .port ∧ takeMove s = (.host w, s') ∧ decode (.host w) = .ok i) ∨
      (∃ fn v, src = .codec ∧ takeMove s = (.codec fn v, s') ∧ decode (.codec fn v) = .ok i) ∨
      (∃ s1 b q, takeMove s = (.block, s1) ∧ src = .rxByte ∧ s1.rpoll = .draining ∧ s1.rxq = b :: q ∧
        s' = { s1 with rxq := q } ∧ i = rxStepRow s1.rxState b) ∨
      (takeMove s = (.block, s') ∧ src = .rxFrame ∧ s'.rpoll = .frame ∧
        decode (.rxFrame (assembledFrame s'.rxf).toBits) = .ok i) ∨
      (takeMove s = (.block, s') ∧ src = .txFrame ∧ s'.rpoll = .none ∧
        (∃ o a c g, s'.tmPhase = .sendWrite o a c g) ∧ decode (.txFrame s'.txb.toBits) = .ok i) := by
  unfold fetch at h
  split at h
  · cases h
  · rename_i src' w s1 hw
    split at h
    · rename_i i' hd
      cases h
      unfold fetchWord at hw
      split at hw
      · rename_i s2 ht
        unfold blockWord at hw
        split at hw
        · rename_i hr
          unfold rxRead at hw
          split at hw
          · cases hw
          · rename_i b q hq
            simp at hw
            obtain ⟨rfl, rfl, rfl⟩ := hw
            rw [decode_rxByteWord] at hd
            cases hd
            exact .inr (.inr (.inl ⟨s2, b, q, ht, rfl, hr, hq, rfl, rfl⟩))
        · rename_i hr
          cases hw
          exact .inr (.inr (.inr (.inl ⟨ht, rfl, hr, hd⟩)))
        · cases hw
        · rename_i hr
          split at hw
          · rename_i o a c g hp
            cases hw
            exact .inr (.inr (.inr (.inr ⟨ht, rfl, hr, ⟨o, a, c, g, hp⟩, hd⟩)))
          · cases hw
      · rename_i s2 ht; cases hw; exact .inl ⟨_, rfl, ht, hd⟩
      · rename_i s2 ht; cases hw; exact .inr (.inl ⟨_, _, rfl, ht, hd⟩)
      · cases hw
    · cases h

end Sys2Proof.Machine
end

