-- ==== Sys2Proof/Laws/Progress.lean ====
section
/-! SUPPORT. The progress of the block's waits (20_memory.md R53): under the fairness assumption the
duration passes; once it has passed the wait ends within a bounded number of the block's steps; while the
clock stands still it does not end. -/

namespace Sys2Proof.Machine

/-! ### What moves the clock -/

theorem whenIdle_clock (f : State → State) (s : State)
    (h : (f { s with accepted := true }).clock = s.clock) : (whenIdle f s).clock = s.clock := by
  unfold whenIdle
  split
  · exact h
  · rfl

theorem startSend_clock (o : Owner) (c : Byte) (g : U16) (a : Bool) (s : State) :
    (startSend o c g a s).clock = s.clock := by
  rcases startSend_cases o c g a s with ⟨-, -, h⟩ | ⟨-, h⟩ <;> simp [h]

theorem receiveFrame_clock (o : ClassOutcome) (c a : Byte) (p k : U16) (s : State) :
    (receiveFrame o c a p k s).clock = s.clock := by
  rcases receiveFrame_cases o c a p k s with ⟨-, h⟩ | ⟨-, h⟩
  · rcases applyOutcome_cases o c p s with ⟨_, -, h'⟩ | ⟨-, h'⟩ | ⟨-, h'⟩ | ⟨-, h'⟩ <;> simp [h, h']
  · simp [h]

/-- No instruction moves the clock: "The block cannot set it" (60_exceptions.md R190). -/
theorem exec_clock {i : Instr} {s t : State} (h : exec i s = .next t) : t.clock = s.clock := by
  cases i
  case nop => cases h; exact whenIdle_clock _ _ rfl
  case init a r =>
    cases h
    refine whenIdle_clock _ _ ?_
    cases r
    · rfl
    · exact startSend_clock ..
  case send => cases h; exact whenIdle_clock _ _ (startSend_clock ..)
  case poll => cases h; exact whenIdle_clock _ _ rfl
  case waitev => cases h; exact whenIdle_clock _ _ rfl
  case rdkind => cases h; exact whenIdle_clock _ _ rfl
  case rdparam => cases h; exact whenIdle_clock _ _ rfl
  case rdcmd => cases h; exact whenIdle_clock _ _ rfl
  case query => cases h; exact whenIdle_clock _ _ (startSend_clock ..)
  case sendm => cases h; exact whenIdle_clock _ _ (startSend_clock ..)
  case rxstepExpectVersion b => cases h; split <;> rfl
  case rxstepExpectLength b => cases h; split <;> rfl
  all_goals first
    | (cases h; rfl)
    | (cases h; exact receiveFrame_clock ..)

theorem afterWrite_clock (s : State) : (afterWrite s).clock = s.clock := by
  rcases afterWrite_cases s with ⟨_, _, _, -, h⟩ | ⟨_, _, _, -, h⟩ | ⟨-, h⟩ <;> simp [h]

theorem afterByte_clock (s : State) : (afterByte s).clock = s.clock := by
  rcases afterByte_cases s with ⟨_, _, -, h⟩ | ⟨_, -, h⟩ | ⟨-, h⟩ <;> simp [h]

theorem commit_clock (src : Source) (s : State) : (commit src s).clock = s.clock := by
  cases src
  · rfl
  · rfl
  · exact afterByte_clock s
  · rfl
  · exact afterWrite_clock s

theorem sendReturn_clock (o : Owner) (s : State) : (sendReturn o s).clock = s.clock := by
  cases o <;> rfl

theorem waitReturn_clock (o : Owner) (arrived : Bool) (s : State) :
    (waitReturn o arrived s).clock = s.clock := by
  cases o <;> cases arrived <;> rfl

theorem pollReturn_clock (s : State) : (pollReturn s).clock = s.clock := by
  rcases pollReturn_cases s with ⟨-, h⟩ | ⟨_, _, _, -, ⟨-, h⟩ | ⟨-, h⟩⟩ |
    ⟨_, _, _, -, ⟨-, h⟩ | ⟨-, -, h⟩ | ⟨-, -, h⟩⟩ | ⟨-, h⟩ <;> simp [h, waitReturn_clock]

theorem phaseStep_clock (s : State) : (phaseStep s).clock = s.clock := by
  rcases phaseStep_cases s with ⟨-, h⟩ | ⟨-, h⟩ | ⟨_, _, _, _, -, h⟩ | ⟨_, _, _, -, h⟩ |
    ⟨_, _, -, ⟨-, h⟩ | ⟨-, h⟩⟩ | ⟨_, _, -, h⟩ | ⟨_, _, -, ⟨-, h⟩ | ⟨-, h⟩⟩ <;>
    simp [h, afterWrite_clock, sendReturn_clock, finishInit]

theorem timeoutCheck_clock (s : State) : (timeoutCheck s).clock = s.clock := by
  rcases timeoutCheck_cases s with ⟨-, h⟩ | ⟨-, h⟩ <;> simp [h]

theorem ownStep_clock (s : State) : (ownStep s).clock = s.clock := by
  rcases ownStep_cases s with ⟨-, h⟩ | ⟨-, h⟩ | ⟨-, h⟩ | ⟨-, h⟩ <;>
    simp [h, phaseStep_clock, timeoutCheck_clock, pollReturn_clock]

/-- Every step answers a next state, so `makeMove` is that step. -/
theorem step_makeMove (m : Move) (s : State) :
    step { s with moves := m :: s.moves } = .next (makeMove m s) := by
  unfold makeMove
  cases h : step { s with moves := m :: s.moves } with
  | next t => rfl
  | fault r => exact nomatch r
  | refused r =>
    exfalso
    unfold step at h
    split at h
    · rename_i src i s' _
      cases i <;> cases h
    · cases h

theorem takeMove_cons (m : Move) (s : State) : takeMove { s with moves := m :: s.moves } = (m, s) := rfl

/-- A move advances the clock by its ticks and by nothing else. -/
theorem makeMove_clock (m : Move) (s : State) :
    (makeMove m s).clock = s.clock + BitVec.ofNat 32 m.ticks := by
  rcases step_cases (step_makeMove m s) with ⟨src, i, s', u, hf, he, ht⟩ | ⟨-, ht⟩
  · have hc : (makeMove m s).clock = s'.clock := by rw [ht, commit_clock, exec_clock he]
    rw [hc]
    rcases fetch_cases hf with ⟨w, -, hm, -⟩ | ⟨fn, v, -, hm, -⟩ | ⟨s1, b, q, hm, -, -, -, hs, -⟩ |
      ⟨hm, -⟩ | ⟨hm, -⟩ <;> rw [takeMove_cons] at hm <;> cases hm <;> simp_all [Move.ticks]
  · rw [ht]
    cases m <;> simp [otherMove, takeMove_cons, Move.ticks, ownStep_clock]

theorem runUnder_clock (σ : Nat → Move) (s : State) (n : Nat) :
    (runUnder σ s n).clock = s.clock + BitVec.ofNat 32 (timePassed σ n) := by
  induction n with
  | zero => simp [runUnder, timePassed]
  | succ n ih => simp [runUnder, timePassed, makeMove_clock, ih, BitVec.ofNat_add, BitVec.add_assoc]

/-! ### Under the fairness assumption the duration passes -/

/-- The first time at which the schedule has let `goal` pass overshoots it by less than the tick that does. -/
theorem timePassed_reaches {σ : Nat → Move} (hσ : ClockAdvances σ) {goal step : Nat}
    (hstep : ∀ n, (σ n).ticks ≤ step) (h0 : 0 < step) : ∃ n, goal ≤ timePassed σ n ∧ timePassed σ n < goal + step := by
  obtain ⟨n, hn⟩ := hσ goal
  induction n with
  | zero => exact ⟨0, hn, by simp [timePassed]; omega⟩
  | succ n ih =>
    by_cases h : goal ≤ timePassed σ n
    · exact ih h
    · have := hstep n
      exact ⟨n + 1, hn, by simp [timePassed]; omega⟩

/-- Every duration passes under a fair schedule. The premise on the ticks is that of 43_transaction.md
R152: an elapsed time is right as long as less than 2^32 has truly passed, so no tick may jump over the
readings at which the test holds. -/
theorem duration_passes {σ : Nat → Move} (hσ : ClockAdvances σ) (s : State) (t0 d : Time)
    (hstep : ∀ n, (σ n).ticks ≤ 2 ^ 32 - d.toNat) : ∃ n, hasElapsed t0 d (runUnder σ s n) = true := by
  have hd := d.isLt
  by_cases h : hasElapsed t0 d s = true
  · exact ⟨0, h⟩
  · have he : (s.clock - t0).toNat < d.toNat := by
      simpa [hasElapsed, elapsed, now, BitVec.le_def] using h
    obtain ⟨n, hlo, hhi⟩ :=
      timePassed_reaches hσ (goal := d.toNat - (s.clock - t0).toNat) hstep (by omega)
    refine ⟨n, ?_⟩
    have e : (runUnder σ s n).clock - t0 = (s.clock - t0) + BitVec.ofNat 32 (timePassed σ n) := by
      rw [runUnder_clock]
      bv_omega
    simp only [hasElapsed, elapsed, now, decide_eq_true_eq, BitVec.le_def, e, BitVec.toNat_add,
      BitVec.toNat_ofNat]
    rw [Nat.mod_eq_of_lt (a := timePassed σ n) (by omega), Nat.mod_eq_of_lt (by omega)]
    omega

/-! ### What one step of the block does inside a poll -/

/-- What every step of a poll leaves alone: the operation and the clock, and of the pending transaction
everything but that it may be resolved. -/
structure Stays (s t : State) : Prop where
  tmPhase : t.tmPhase = s.tmPhase
  clock : t.clock = s.clock
  pending : t.pending = s.pending ∨ t.pending.valid = false

/-- The time test reads the clock alone. -/
theorem hasElapsed_congr {s t : State} (h : t.clock = s.clock) (t0 d : Time) :
    hasElapsed t0 d t = hasElapsed t0 d s := by
  rw [hasElapsed, hasElapsed, elapsed, elapsed, now, now, h]

theorem Stays.timeoutDue {s t : State} (h : Stays s t)
    (hs : s.pending.valid = true → Machine.timeoutDue s = true) :
    t.pending.valid = true → Machine.timeoutDue t = true := by
  intro hv
  rcases h.pending with hp | hp
  · rw [hp] at hv
    rw [Machine.timeoutDue, hp, hasElapsed_congr h.clock]
    exact hs hv
  · simp [hp] at hv

theorem takeFrameError_stays (e : ErrCause) (c : Option Byte) (s : State) :
    Stays s (takeFrameError e c s) := by
  rcases takeFrameError_cases e c s with ⟨-, h⟩ | ⟨-, h⟩ <;> rw [h]
  · exact ⟨rfl, rfl, .inr rfl⟩
  · exact ⟨rfl, rfl, .inl rfl⟩

theorem receiveFrame_stays (o : ClassOutcome) (c a : Byte) (p k : U16) (s : State) :
    Stays s (receiveFrame o c a p k s) := by
  rcases receiveFrame_cases o c a p k s with ⟨-, h⟩ | ⟨-, h⟩ <;> rw [h]
  · rcases applyOutcome_cases o c p s with ⟨_, -, h'⟩ | ⟨-, h'⟩ | ⟨-, h'⟩ | ⟨-, h'⟩ <;> rw [h']
    · exact ⟨rfl, rfl, .inl rfl⟩
    · exact ⟨rfl, rfl, .inr rfl⟩
    · exact ⟨rfl, rfl, .inl rfl⟩
    · exact takeFrameError_stays ..
  · exact takeFrameError_stays ..

theorem receiveFrame_rxq (o : ClassOutcome) (c a : Byte) (p k : U16) (s : State) :
    (receiveFrame o c a p k s).rxq = s.rxq := by
  rcases receiveFrame_cases o c a p k s with ⟨-, h⟩ | ⟨-, h⟩
  · rcases applyOutcome_cases o c p s with ⟨_, -, h'⟩ | ⟨-, h'⟩ | ⟨-, h'⟩ | ⟨-, h'⟩ <;> simp [h, h']
  · simp [h]

/-- Every row of a received frame is the reception of a frame with some outcome. -/
theorem exec_rxRow_cases (c a : Byte) (p k : U16) (s : State) :
    ∃ o c', exec (rxRow c a p k) s = .next (receiveFrame o c' a p k s) := by
  have low : ∀ i, rxFeedbackLowRow c a p k = some i →
      ∃ o c', exec i s = .next (receiveFrame o c' a p k s) := by
    intro i h
    unfold rxFeedbackLowRow at h
    repeat' split at h
    all_goals cases h
    all_goals exact ⟨_, _, rfl⟩
  have high : ∀ i, rxFeedbackHighRow c a p k = some i →
      ∃ o c', exec i s = .next (receiveFrame o c' a p k s) := by
    intro i h
    unfold rxFeedbackHighRow at h
    repeat' split at h
    all_goals cases h
    all_goals exact ⟨_, _, rfl⟩
  have unlisted : ∃ o c', exec (rxUnlistedRow c a p k) s = .next (receiveFrame o c' a p k s) := by
    unfold rxUnlistedRow
    repeat' split
    all_goals exact ⟨_, _, rfl⟩
  unfold rxRow
  split; · unfold rx3aRow; repeat' split
           all_goals exact ⟨_, _, rfl⟩
  split; · unfold rx3bRow; repeat' split
           all_goals exact ⟨_, _, rfl⟩
  split; · exact ⟨_, _, rfl⟩
  split; · unfold rx3fRow; repeat' split
           all_goals exact ⟨_, _, rfl⟩
  split; · exact ⟨_, _, rfl⟩
  split; · exact ⟨_, _, rfl⟩
  cases hl : rxFeedbackLowRow c a p k with
  | some i => exact low i hl
  | none =>
    cases hh : rxFeedbackHighRow c a p k with
    | some i => exact high i hh
    | none => exact unlisted

/-- A byte step leaves the queue, the poll's place, the event slot and what `Stays` names. -/
theorem exec_rxStepRow_stays {r : RxState} {b : Byte} {s u : State}
    (h : exec (rxStepRow r b) s = .next u) :
    Stays s u ∧ u.rxq = s.rxq ∧ u.rpoll = s.rpoll := by
  cases r <;> cases h <;> (try split) <;> exact ⟨⟨rfl, rfl, .inl rfl⟩, rfl, rfl⟩

/-- What follows a byte step goes on draining, or to a frame, or ends the poll. -/
theorem afterByte_stays {u : State} (hr : u.rpoll = .draining) :
    Stays u (afterByte u) ∧ (afterByte u).rxq = u.rxq ∧ (afterByte u).rpoll ≠ .none := by
  rcases afterByte_cases u with ⟨c, p, -, h⟩ | ⟨e, -, h⟩ | ⟨-, h⟩ <;> rw [h]
  · exact ⟨⟨rfl, rfl, .inl rfl⟩, rfl, by simp⟩
  · exact ⟨⟨rfl, rfl, (takeFrameError_stays e none u).pending⟩, by simp, by simp⟩
  · exact ⟨⟨rfl, rfl, .inl rfl⟩, rfl, by simp [hr]⟩

theorem fetchWord_block (s : State) : fetchWord { s with moves := .block :: s.moves } = blockWord s := rfl

/-- A step of the block that reads no word is its own step. -/
theorem block_ownStep {s : State} (h : blockWord s = none) : makeMove .block s = ownStep s := by
  have hf : fetch { s with moves := .block :: s.moves } = .other := by
    rw [fetch, fetchWord_block, h]
  rw [makeMove, step, hf]
  rfl

/-- A poll that finds a byte takes it. -/
theorem block_takes_byte {s : State} {b : Byte} {q : List Byte} (hr : s.rpoll = .draining)
    (hq : s.rxq = b :: q) :
    Stays s (makeMove .block s) ∧ (makeMove .block s).rxq = q ∧ (makeMove .block s).rpoll ≠ .none := by
  have hw : fetchWord { s with moves := .block :: s.moves } =
      some (.rxByte, rxByteWord s.rxState b, { s with rxq := q }) := by
    rw [fetchWord_block]
    simp [blockWord, hr, rxRead, hq]
  have hf := fetch_run hw (decode_rxByteWord _ _)
  rcases step_cases (step_makeMove .block s) with ⟨src, i, s', u, hf', he, ht⟩ | ⟨hf', -⟩
  · rw [hf] at hf'
    cases hf'
    obtain ⟨h1, h2, h3⟩ := exec_rxStepRow_stays he
    obtain ⟨k1, k2, k3⟩ := afterByte_stays (u := u) (h3.trans hr)
    rw [ht]
    refine ⟨⟨k1.tmPhase.trans h1.tmPhase, k1.clock.trans h1.clock, ?_⟩, k2.trans h2, k3⟩
    rcases k1.pending with hp | hp
    · exact h1.pending.imp (fun e => hp.trans e) (fun e => by rw [commit, hp]; exact e)
    · exact .inr hp
  · rw [hf] at hf'
    cases hf'

/-- A poll that finds RXQ empty makes the time-out check. -/
theorem block_checks_timeout {s : State} (hr : s.rpoll = .draining) (hq : s.rxq = []) :
    makeMove .block s = timeoutCheck s := by
  rw [block_ownStep (by simp [blockWord, hr, rxRead, hq]), ownStep, hr]

/-- A frame is classified and the poll is over. -/
theorem block_classifies {s : State} (hr : s.rpoll = .frame) :
    Stays s (makeMove .block s) ∧ (makeMove .block s).rxq = s.rxq ∧
      (makeMove .block s).rpoll = .finished := by
  rcases step_cases (step_makeMove .block s) with ⟨src, i, s', u, hf, he, ht⟩ | ⟨-, ht⟩
  · rcases fetch_cases hf with ⟨w, -, hm, -⟩ | ⟨fn, v, -, hm, -⟩ | ⟨s1, b, q, hm, -, hr', -⟩ |
      ⟨hm, rfl, -, hd⟩ | ⟨hm, -, hr', -⟩ <;> rw [takeMove_cons] at hm <;> cases hm
    · simp [hr] at hr'
    · obtain ⟨c, a, p, k, rfl⟩ := decode_rxFrame_cases hd
      obtain ⟨o, c', h⟩ := exec_rxRow_cases c a p k s
      rw [h] at he
      cases he
      have hs := receiveFrame_stays o c' a p k s
      rw [ht]
      exact ⟨⟨hs.tmPhase, hs.clock, hs.pending⟩, receiveFrame_rxq .., rfl⟩
    · simp [hr] at hr'
  · have : makeMove .block s = { s with rpoll := .finished } := by
      rw [ht, otherMove, takeMove_cons]
      simp only [ownStep, hr]
    rw [this]
    exact ⟨⟨rfl, rfl, .inl rfl⟩, rfl, rfl⟩

/-- A poll that is over returns to its operation. -/
theorem block_returns {s : State} (hr : s.rpoll = .finished) : makeMove .block s = pollReturn s := by
  rw [block_ownStep (by simp [blockWord, hr]), ownStep, hr]

/-- Outside a poll and a write the operation makes its own step. -/
theorem block_phaseStep {s : State} (hr : s.rpoll = .none)
    (hp : ∀ o a c g, s.tmPhase ≠ .sendWrite o a c g) : makeMove .block s = phaseStep s := by
  have hw : blockWord s = none := by
    unfold blockWord
    rw [hr]
    dsimp only
    split
    · rename_i o a c g h; exact absurd h (hp o a c g)
    · rfl
  rw [block_ownStep hw, ownStep, hr]

theorem timeoutCheck_stays (s : State) :
    Stays s (timeoutCheck s) ∧ (timeoutCheck s).rxq = s.rxq ∧ (timeoutCheck s).rpoll = .finished := by
  rcases timeoutCheck_cases s with ⟨-, h⟩ | ⟨-, h⟩ <;> rw [h]
  · have e := takeFrameError_stays .timedOut none s
    exact ⟨⟨e.tmPhase, e.clock, e.pending⟩, by simp, rfl⟩
  · exact ⟨⟨rfl, rfl, .inl rfl⟩, rfl, rfl⟩

theorem runUnder_blockAlone_succ (s : State) (n : Nat) :
    runUnder blockAlone s (n + 1) = runUnder blockAlone (makeMove .block s) n := by
  induction n with
  | zero => rfl
  | succ n ih => rw [runUnder, ih]; rfl

/-! ### Once the duration has passed the wait ends -/

/-- The quiescence delay ends at the block's next step. -/
theorem quiescence_ends {s : State} {o : Owner} {t0 : Time} (hr : s.rpoll = .none)
    (hp : s.tmPhase = .sendQuiesce o t0) (h : hasElapsed t0 Config.QUIESCE s = true) :
    makeMove .block s = sendReturn o s := by
  rw [block_phaseStep hr (by simp [hp])]
  simp [phaseStep, hp, h]

/-- The settle delay ends at the block's next step. -/
theorem settle_ends {s : State} {arrived : Bool} {t0 : Time} (hr : s.rpoll = .none)
    (hp : s.tmPhase = .initSettle arrived t0) (h : hasElapsed t0 Config.SETTLE_DELAY s = true) :
    makeMove .block s = finishInit arrived s := by
  rw [block_phaseStep hr (by simp [hp])]
  simp [phaseStep, hp, h]

/-- How many steps of the block a WAITEV whose duration has passed may still take. -/
def waitMeasure (s : State) : Nat :=
  match s.rpoll with
  | .none => s.rxq.length + 3
  | .draining => s.rxq.length + 2
  | .frame => 2
  | .finished => 1

theorem waitReturn_phase (o : Owner) (arrived : Bool) (s : State) (o' : Owner) (t0 d : Time) :
    (waitReturn o arrived s).tmPhase ≠ .waitEvent o' t0 d := by
  cases o <;> cases arrived <;> simp [waitReturn, finishQuery]

theorem waitMeasure_le {t : State} (h : t.rpoll ≠ .none) : waitMeasure t ≤ t.rxq.length + 2 := by
  unfold waitMeasure
  cases hr : t.rpoll <;> simp_all

/-- WAITEV "ends at the latest after maxDuration" (20_memory.md R53): once it has passed, the peripheral
silent, the wait ends within as many steps of the block as RXQ holds bytes, and three. -/
theorem waitev_ends {o : Owner} {t0 d : Time} (m : Nat) {s : State} (hm : waitMeasure s ≤ m)
    (hp : s.tmPhase = .waitEvent o t0 d) (h : hasElapsed t0 d s = true) :
    ∃ n ≤ m, (runUnder blockAlone s n).tmPhase ≠ .waitEvent o t0 d := by
  induction m generalizing s with
  | zero => unfold waitMeasure at hm; cases hr : s.rpoll <;> simp [hr] at hm
  | succ m ih =>
    have next : waitMeasure (makeMove .block s) ≤ m → Stays s (makeMove .block s) →
        ∃ n ≤ m + 1, (runUnder blockAlone s n).tmPhase ≠ .waitEvent o t0 d := by
      intro hm' hs
      obtain ⟨n, hn, hx⟩ := ih hm' (hs.tmPhase.trans hp)
        ((hasElapsed_congr hs.clock t0 d).trans h)
      exact ⟨n + 1, by omega, by rwa [runUnder_blockAlone_succ]⟩
    cases hr : s.rpoll with
    | none =>
      have e : makeMove .block s = beginPoll s := by
        rw [block_phaseStep hr (by simp [hp])]; simp [phaseStep, hp]
      refine next ?_ ?_
      · rw [e]; simp [waitMeasure, hr] at hm ⊢; omega
      · rw [e]; exact ⟨rfl, rfl, .inl rfl⟩
    | draining =>
      cases hq : s.rxq with
      | nil =>
        rw [waitMeasure, hr, hq] at hm
        obtain ⟨h1, h2, h3⟩ := timeoutCheck_stays s
        rw [← block_checks_timeout hr hq] at h1 h2 h3
        refine next ?_ h1
        rw [waitMeasure, h3]; simp at hm; simpa using hm
      | cons b q =>
        obtain ⟨h1, h2, h3⟩ := block_takes_byte hr hq
        refine next ?_ h1
        have := waitMeasure_le h3
        simp [waitMeasure, hr, hq] at hm
        rw [h2] at this
        omega
    | frame =>
      obtain ⟨h1, h2, h3⟩ := block_classifies hr
      refine next ?_ h1
      simp [waitMeasure, hr] at hm
      simp [waitMeasure, h3]
      omega
    | finished =>
      refine ⟨1, by omega, ?_⟩
      have e : runUnder blockAlone s 1 = pollReturn s := block_returns hr
      rw [e, pollReturn, hp]
      cases ha : s.ev.available <;> simp [h, waitReturn_phase]

/-- Under the fairness assumption a WAITEV comes to a point from which the block ends it, the peripheral
silent from there on. -/
theorem waitev_progress {σ : Nat → Move} (hσ : ClockAdvances σ) (s : State) (o : Owner) (t0 d : Time)
    (hstep : ∀ n, (σ n).ticks ≤ 2 ^ 32 - d.toNat) :
    ∃ n k, (runUnder blockAlone (runUnder σ s n) k).tmPhase ≠ .waitEvent o t0 d := by
  obtain ⟨n, hn⟩ := duration_passes hσ s t0 d hstep
  by_cases hp : (runUnder σ s n).tmPhase = .waitEvent o t0 d
  · obtain ⟨k, -, hk⟩ := waitev_ends _ le_rfl hp hn
    exact ⟨n, k, hk⟩
  · exact ⟨n, 0, hp⟩

/-- How many steps of the block a blocked SEND may still take once the deadline has passed. -/
def blockedMeasure (s : State) : Nat :=
  match s.rpoll with
  | .none => 3 * s.rxq.length + 3
  | .draining => 3 * s.rxq.length + 2
  | .frame => 3 * s.rxq.length + 4
  | .finished => if s.pending.valid then 3 * s.rxq.length + 3 else 1

theorem blockedMeasure_le {t : State} (h : t.rpoll ≠ .none) :
    blockedMeasure t ≤ 3 * t.rxq.length + 4 := by
  unfold blockedMeasure
  cases hr : t.rpoll <;> simp_all
  split <;> omega

/-- The blocked SEND "ends at the latest when the earlier transaction times out" (20_memory.md R53): once
the time-out is due, the peripheral silent, it goes on to its write within three steps of the block for
each byte of RXQ, and four. -/
theorem blocked_send_ends {o : Owner} {c : Byte} {g : U16} (m : Nat) {s : State}
    (hm : blockedMeasure s ≤ m) (hp : s.tmPhase = .sendBlocked o c g)
    (h : s.pending.valid = true → timeoutDue s = true) :
    ∃ n ≤ m, (runUnder blockAlone s n).tmPhase = .sendWrite o true c g := by
  induction m generalizing s with
  | zero =>
    unfold blockedMeasure at hm
    cases hr : s.rpoll <;> simp [hr] at hm
    split at hm <;> omega
  | succ m ih =>
    have next : blockedMeasure (makeMove .block s) ≤ m → Stays s (makeMove .block s) →
        ∃ n ≤ m + 1, (runUnder blockAlone s n).tmPhase = .sendWrite o true c g := by
      intro hm' hs
      obtain ⟨n, hn, hx⟩ := ih hm' (hs.tmPhase.trans hp) (hs.timeoutDue h)
      exact ⟨n + 1, by omega, by rwa [runUnder_blockAlone_succ]⟩
    cases hr : s.rpoll with
    | none =>
      have e : makeMove .block s = beginPoll s := by
        rw [block_phaseStep hr (by simp [hp])]; simp [phaseStep, hp]
      refine next ?_ ?_
      · rw [e]; simp [blockedMeasure, hr] at hm ⊢; omega
      · rw [e]; exact ⟨rfl, rfl, .inl rfl⟩
    | draining =>
      cases hq : s.rxq with
      | nil =>
        have e := block_checks_timeout hr hq
        obtain ⟨h1, h2, h3⟩ := timeoutCheck_stays s
        have hv : (timeoutCheck s).pending.valid = false := by
          rcases timeoutCheck_cases s with ⟨-, e'⟩ | ⟨hd, e'⟩ <;> rw [e']
          · simp [takeFrameError]
          · cases hv : s.pending.valid
            · rfl
            · simp [h hv] at hd
        refine next ?_ (e ▸ h1)
        rw [e, blockedMeasure, h3, hv]
        simp [blockedMeasure, hr, hq] at hm
        simpa using (by omega : 1 ≤ m)
      | cons b q =>
        obtain ⟨h1, h2, h3⟩ := block_takes_byte hr hq
        refine next ?_ h1
        have := blockedMeasure_le h3
        simp [blockedMeasure, hr, hq] at hm
        rw [h2] at this
        omega
    | frame =>
      obtain ⟨h1, h2, h3⟩ := block_classifies hr
      refine next ?_ h1
      simp [blockedMeasure, hr] at hm
      simp only [blockedMeasure, h3, h2]
      split <;> omega
    | finished =>
      have e : makeMove .block s = pollReturn s := block_returns hr
      cases hv : s.pending.valid with
      | false =>
        refine ⟨1, by omega, ?_⟩
        rw [runUnder_blockAlone_succ, e]
        simp [runUnder, pollReturn, hp, hv, beginWrite]
      | true =>
        have e' : makeMove .block s = beginPoll s := by rw [e, pollReturn, hp]; simp [hv]
        refine next ?_ ?_
        · rw [e']; simp [blockedMeasure, hr, hv] at hm ⊢; omega
        · rw [e']; exact ⟨rfl, rfl, .inl rfl⟩

/-! ### While the clock stands still and the peripheral is silent the wait does not end -/

/-- An invariant that every step of the block alone keeps holds along the run of the block alone. -/
theorem blockAlone_invariant {P : State → Prop} (hP : ∀ s, P s → P (makeMove .block s)) {s : State}
    (h : P s) (n : Nat) : P (runUnder blockAlone s n) := by
  induction n with
  | zero => exact h
  | succ n ih => exact hP _ ih

theorem quiescence_hangs {s : State} {o : Owner} {t0 : Time} (hr : s.rpoll = .none)
    (hp : s.tmPhase = .sendQuiesce o t0) (h : hasElapsed t0 Config.QUIESCE s = false) (n : Nat) :
    runUnder blockAlone s n = s := by
  refine blockAlone_invariant (P := (· = s)) ?_ rfl n
  rintro _ rfl
  rw [block_phaseStep hr (by simp [hp])]
  simp [phaseStep, hp, h]

theorem settle_hangs {s : State} {arrived : Bool} {t0 : Time} (hr : s.rpoll = .none)
    (hp : s.tmPhase = .initSettle arrived t0) (h : hasElapsed t0 Config.SETTLE_DELAY s = false)
    (n : Nat) : runUnder blockAlone s n = s := by
  refine blockAlone_invariant (P := (· = s)) ?_ rfl n
  rintro _ rfl
  rw [block_phaseStep hr (by simp [hp])]
  simp [phaseStep, hp, h]

/-- A poll over an empty RXQ with no time-out due: nothing to report, now or later. -/
structure DryPoll (s : State) : Prop where
  polling : s.rpoll = .draining ∨ s.rpoll = .finished
  empty : s.rxq = []
  notDue : timeoutDue s = false

theorem DryPoll.noReport {s : State} (h : DryPoll s) :
    timeoutCheck s = { s with report := .noData, rpoll := .finished } := by
  simp [timeoutCheck, h.notDue]

theorem waitev_hangs {s : State} {o : Owner} {t0 d : Time} (h : DryPoll s)
    (hp : s.tmPhase = .waitEvent o t0 d) (ha : s.ev.available = false)
    (he : hasElapsed t0 d s = false) (n : Nat) :
    (runUnder blockAlone s n).tmPhase = .waitEvent o t0 d := by
  refine (blockAlone_invariant (P := fun s => s.tmPhase = .waitEvent o t0 d ∧ DryPoll s ∧
    s.ev.available = false ∧ hasElapsed t0 d s = false) ?_ ⟨hp, h, ha, he⟩ n).1
  rintro s ⟨hp, h, ha, he⟩
  rcases h.polling with hr | hr
  · rw [block_checks_timeout hr h.empty, h.noReport]
    exact ⟨hp, ⟨.inr rfl, h.empty, h.notDue⟩, ha, he⟩
  · have e : makeMove .block s = beginPoll s := by
      rw [block_returns hr, pollReturn, hp]; simp [ha, he]
    rw [e]
    exact ⟨hp, ⟨.inl rfl, h.empty, h.notDue⟩, ha, he⟩

theorem blocked_send_hangs {s : State} {o : Owner} {c : Byte} {g : U16} (h : DryPoll s)
    (hp : s.tmPhase = .sendBlocked o c g) (hv : s.pending.valid = true) (n : Nat) :
    (runUnder blockAlone s n).tmPhase = .sendBlocked o c g := by
  refine (blockAlone_invariant (P := fun s => s.tmPhase = .sendBlocked o c g ∧ DryPoll s ∧
    s.pending.valid = true) ?_ ⟨hp, h, hv⟩ n).1
  rintro s ⟨hp, h, hv⟩
  rcases h.polling with hr | hr
  · rw [block_checks_timeout hr h.empty, h.noReport]
    exact ⟨hp, ⟨.inr rfl, h.empty, h.notDue⟩, hv⟩
  · have e : makeMove .block s = beginPoll s := by
      rw [block_returns hr, pollReturn, hp]; simp [hv]
    rw [e]
    exact ⟨hp, ⟨.inl rfl, h.empty, h.notDue⟩, hv⟩

/-- A schedule that lets the block and the clock move in turn. -/
def inTurn (n : Nat) : Move := if n % 2 = 0 then .block else .envTick 1

theorem inTurn_timePassed (k : Nat) : timePassed inTurn (2 * k) = k := by
  induction k with
  | zero => rfl
  | succ k ih =>
    have h0 : 2 * k % 2 = 0 := by omega
    have h1 : (2 * k + 1) % 2 ≠ 0 := by omega
    rw [show 2 * (k + 1) = 2 * k + 1 + 1 by omega, timePassed, timePassed, ih, inTurn, inTurn, if_pos h0,
      if_neg h1]
    rfl

theorem inTurn_fair : ClockAdvances inTurn := fun time => ⟨2 * time, (inTurn_timePassed time).ge⟩

theorem blockAlone_not_fair : ¬ ClockAdvances blockAlone := by
  intro h
  obtain ⟨n, hn⟩ := h 1
  have stands : ∀ n, timePassed blockAlone n = 0 := by
    intro n
    induction n with
    | zero => rfl
    | succ n ih => rw [timePassed, ih]; rfl
  rw [stands n] at hn
  omega

end Sys2Proof.Machine
end

