-- ==== Sys2Proof/Tests/Slice0.lean ====
section
/-! SUPPORT. The tests of the model's author: what the well-formedness check refuses, words written out from
the spec's encodings, single steps checked against 95_test_vectors.md (cited as V<n>), and for each
statement with hypotheses a state and operands that meet them. The values expected are the spec's. -/

namespace Sys2Proof.Tests

open Sys2Proof Sys2Proof.Machine

set_option maxRecDepth 8000

/-- The reset state with the sample time-out of 95_test_vectors.md section 0, at time 1000. -/
def st : State := { State.reset with timeoutDuration := 500, clock := 1000 }

/-- `st` with one move to come. -/
def stMove (m : Move) : State := { st with moves := [m] }

/-- `st` inside a poll of POLL, with the receiver at `r` and these bytes in RXQ. -/
def stPoll (r : RxState) (q : List Byte) : State :=
  { st with rxState := r, rxq := q, tmPhase := .poll, rpoll := .draining }

/-- `st` with the transaction of V37 pending since `t`, inside a poll at time `now`, RXQ empty. -/
def stPending (t now : Time) : State :=
  { stPoll .idle [] with
    clock := now
    pending := { valid := true, command := 0x03, argument := 0x0005, requiresAck := true,
                 sentAt := t, deadline := 500 } }

/-- `st` with an event stored (V55). -/
def stEvent : State :=
  { st with ev := { kind := .playFinished, parameter := 0x0007, command := 0x3D, available := true } }

/-- RXF of the frame of V17. -/
def rxfV17 : RxFields :=
  { command := 0x3D, ackFlag := 0x00, paramHi := 0x00, paramLo := 0x07, cksumHi := 0xFE, cksumLo := 0xB7 }

/-- A value read from the next state of an outcome. -/
def after {α : Type} (o : Host.Outcome State Fault Refusal) (f : State → α) : Option α :=
  match o with
  | .next t => some (f t)
  | _ => none

/-- What a received frame, given by its ten bytes, does to the event slot of `s`. -/
def receive (v : BitVec 80) (s : State) : Option (EventKind × U16 × Byte × Bool) :=
  match decode (.rxFrame v) with
  | .ok i => after (exec i s) fun t => (t.ev.kind, t.ev.parameter, t.ev.command, t.ev.available)
  | .error _ => none

/-- The kind, the command field and the flag only: where ERR_PARAM, an open parameter, is stored. -/
def receiveError (v : BitVec 80) (s : State) : Option (EventKind × Byte × Bool × PollResult) :=
  match decode (.rxFrame v) with
  | .ok i => after (exec i s) fun t => (t.ev.kind, t.ev.command, t.ev.available, t.report)
  | .error _ => none

/-! ### Well-formedness: one ill-formed term for each check -/

theorem test_wf_refuses_checksum_version : (Instr.checksum 0xFE 0x06 0 0 0 0).wf = false := by decide
theorem test_wf_refuses_checksum_length : (Instr.checksum 0xFF 0x07 0 0 0 0).wf = false := by decide
theorem test_wf_refuses_frames_without_constants :
    (Instr.decode (Frame.ofBits 0x7FFF063D000007FEB7EF)).wf = false ∧
    (Instr.decode (Frame.ofBits 0x7EFE063D000007FEB7EF)).wf = false ∧
    (Instr.validate (Frame.ofBits 0x7EFF073D000007FEB7EF)).wf = false ∧
    (Instr.validate (Frame.ofBits 0x7EFF063D000007FEB7EE)).wf = false := by decide
theorem test_wf_refuses_wrong_status_bits :
    (Instr.rx3aUsbinserted 0 0x0002 0).wf = false ∧
    (Instr.rx3aCardinserted 0 0x0003 0).wf = false ∧ (Instr.rx3aCardinserted 0 0x0000 0).wf = false ∧
    (Instr.rx3aNomatch 0 0x0001 0).wf = false ∧ (Instr.rx3aNomatch 0 0x0002 0).wf = false ∧
    (Instr.rx3bUsbremoved 0 0x0002 0).wf = false ∧
    (Instr.rx3bCardremoved 0 0x0003 0).wf = false ∧ (Instr.rx3bCardremoved 0 0x0000 0).wf = false ∧
    (Instr.rx3bNomatch 0 0x0001 0).wf = false ∧ (Instr.rx3bNomatch 0 0x0002 0).wf = false ∧
    (Instr.rx3fUsbonline 0 0x0002 0).wf = false ∧
    (Instr.rx3fCardonline 0 0x0003 0).wf = false ∧ (Instr.rx3fCardonline 0 0x0000 0).wf = false ∧
    (Instr.rx3fNomatch 0 0x0001 0).wf = false ∧ (Instr.rx3fNomatch 0 0x0002 0).wf = false := by decide
theorem test_wf_refuses_commands_outside_their_range :
    (Instr.rxUnlisted001f 0x20 0 0 0).wf = false ∧
    (Instr.rxUnlisted202f 0x1F 0 0 0).wf = false ∧ (Instr.rxUnlisted202f 0x30 0 0 0).wf = false ∧
    (Instr.rxUnlisted3037 0x2F 0 0 0).wf = false ∧ (Instr.rxUnlisted3037 0x38 0 0 0).wf = false ∧
    (Instr.rxUnlisted3839 0x37 0 0 0).wf = false ∧ (Instr.rxUnlisted3839 0x3A 0 0 0).wf = false ∧
    (Instr.rxUnlisted505f 0x4F 0 0 0).wf = false ∧ (Instr.rxUnlisted505f 0x60 0 0 0).wf = false ∧
    (Instr.rxUnlisted607f 0x5F 0 0 0).wf = false ∧ (Instr.rxUnlisted607f 0x80 0 0 0).wf = false ∧
    (Instr.rxUnlisted80ff 0x7F 0 0 0).wf = false := by decide
theorem test_wf_accepts_range_ends :
    (Instr.rxUnlisted001f 0x00 0 0 0).wf ∧ (Instr.rxUnlisted001f 0x1F 0 0 0).wf ∧
    (Instr.rxUnlisted202f 0x20 0 0 0).wf ∧ (Instr.rxUnlisted202f 0x2F 0 0 0).wf ∧
    (Instr.rxUnlisted3037 0x30 0 0 0).wf ∧ (Instr.rxUnlisted3037 0x37 0 0 0).wf ∧
    (Instr.rxUnlisted3839 0x38 0 0 0).wf ∧ (Instr.rxUnlisted3839 0x39 0 0 0).wf ∧
    (Instr.rxUnlisted505f 0x50 0 0 0).wf ∧ (Instr.rxUnlisted505f 0x5F 0 0 0).wf ∧
    (Instr.rxUnlisted607f 0x60 0 0 0).wf ∧ (Instr.rxUnlisted607f 0x7F 0 0 0).wf ∧
    (Instr.rxUnlisted80ff 0x80 0 0 0).wf ∧ (Instr.rxUnlisted80ff 0xFF 0 0 0).wf := by decide

/-! ### Decoding: the words of V74, V30, V34, V11 to V13 and V17 -/

theorem test_decode_host_words :
    decode (.host 0x0000000000000000) = .ok .nop ∧
    decode (.host 0x1000000000000000) = .ok (.init false false) ∧
    decode (.host 0x1800000000000000) = .ok (.init true false) ∧
    decode (.host 0x1400000000000000) = .ok (.init false true) ∧
    decode (.host 0x1C00000000000000) = .ok (.init true true) ∧
    decode (.host 0x2003000500000000) = .ok (.send 0x03 0x0005 false) ∧
    decode (.host 0x2803000500000000) = .ok (.send 0x03 0x0005 true) ∧
    decode (.host 0x3000000000000000) = .ok .poll ∧
    decode (.host 0x4000000000000064) = .ok (.waitev 100) ∧
    decode (.host 0x40000000FFFFFFFF) = .ok (.waitev 0xFFFFFFFF) := by decide
theorem test_decode_host_words_rest :
    decode (.host 0x5000000000000000) = .ok .rdkind ∧
    decode (.host 0x6000000000000000) = .ok .rdparam ∧
    decode (.host 0x7000000000000000) = .ok .rdcmd ∧
    decode (.host 0x8043000000000000) = .ok (.query 0x43 0x0000) ∧
    decode (.host 0x9003000500000000) = .ok (.sendm 0x03 0x0005) ∧
    decode (.host 0xA000000000000000) = .ok .reservedOpA ∧
    decode (.host 0xB300000000000000) = .ok .reservedOpB ∧
    decode (.host 0xC000000000000000) = .ok .reservedOpC ∧
    decode (.host 0xD000000000000000) = .ok .reservedOpD ∧
    decode (.host 0xE000000000000000) = .ok .reservedOpE ∧
    decode (.host 0xFFFFFFFFFFFFFFFF) = .ok .reservedOpF ∧
    decode (.host 0x3CFFFFFFFFFFFFFF) = .ok .poll := by decide
theorem test_decode_refuses_zero_bits :
    decode (.host 0x3100000000000000) = .error .nonZeroZeroBits ∧
    decode (.host 0x3200000000000000) = .error .nonZeroZeroBits ∧
    decode (.host 0x0300000000000000) = .error .nonZeroZeroBits := by decide
theorem test_decode_codec_words :
    decode (.codec .checksum 0x7EFF063D000007FEB7EF) =
      .ok (.checksum 0xFF 0x06 0x3D 0x00 0x00 0x07) ∧
    decode (.codec .encode 0x7EFF06420002010000EF) = .ok (.encode 0x42 0x00 0x0201) ∧
    decode (.codec .decode 0x7EFF063D000007FEB7EF) =
      .ok (.decode ⟨0x7E, 0xFF, 0x06, 0x3D, 0x00, 0x00, 0x07, 0xFE, 0xB7, 0xEF⟩) ∧
    decode (.codec .validate 0x7FFF063D000007FEB7EF) =
      .ok (.validate ⟨0x7F, 0xFF, 0x06, 0x3D, 0x00, 0x00, 0x07, 0xFE, 0xB7, 0xEF⟩) := by decide
theorem test_decode_status_bit_frames :
    decode (.rxFrame 0x7EFF063A000001FEC0EF) = .ok (.rx3aUsbinserted 0x00 0x0001 0xFEC0) ∧
    decode (.rxFrame 0x7EFF063A000002FEBFEF) = .ok (.rx3aCardinserted 0x00 0x0002 0xFEBF) ∧
    decode (.rxFrame 0x7EFF063A00FFFCFCC6EF) = .ok (.rx3aNomatch 0x00 0xFFFC 0xFCC6) ∧
    decode (.rxFrame 0x7EFF063B000003FEBDEF) = .ok (.rx3bUsbremoved 0x00 0x0003 0xFEBD) ∧
    decode (.rxFrame 0x7EFF063B000002FEBEEF) = .ok (.rx3bCardremoved 0x00 0x0002 0xFEBE) ∧
    decode (.rxFrame 0x7EFF063B000000FEC0EF) = .ok (.rx3bNomatch 0x00 0x0000 0xFEC0) ∧
    decode (.rxFrame 0x7EFF063F000003FEB9EF) = .ok (.rx3fUsbonline 0x00 0x0003 0xFEB9) ∧
    decode (.rxFrame 0x7EFF063F000002FEBAEF) = .ok (.rx3fCardonline 0x00 0x0002 0xFEBA) ∧
    decode (.rxFrame 0x7EFF063F000004FEB8EF) = .ok (.rx3fNomatch 0x00 0x0004 0xFEB8) := by decide
theorem test_decode_feedback_frames :
    decode (.rxFrame 0x7EFF063C000009FEB6EF) = .ok (.rx3cFeedback 0x00 0x0009 0xFEB6) ∧
    decode (.rxFrame 0x7EFF063E000000FEBDEF) = .ok (.rx3eFeedback 0x00 0x0000 0xFEBD) ∧
    decode (.rxFrame 0x7EFF0642000000FEB9EF) = .ok (.rx42Feedback 0x00 0x0000 0xFEB9) ∧
    decode (.rxFrame 0x7EFF0643000000FEB8EF) = .ok (.rx43Feedback 0x00 0x0000 0xFEB8) ∧
    decode (.rxFrame 0x7EFF0644000000FEB7EF) = .ok (.rx44Feedback 0x00 0x0000 0xFEB7) ∧
    decode (.rxFrame 0x7EFF0645000000FEB6EF) = .ok (.rx45Feedback 0x00 0x0000 0xFEB6) ∧
    decode (.rxFrame 0x7EFF0646000000FEB5EF) = .ok (.rx46Feedback 0x00 0x0000 0xFEB5) ∧
    decode (.rxFrame 0x7EFF0647000000FEB4EF) = .ok (.rx47Feedback 0x00 0x0000 0xFEB4) := by decide
theorem test_decode_feedback_frames_rest :
    decode (.rxFrame 0x7EFF0648000000FEB3EF) = .ok (.rx48Feedback 0x00 0x0000 0xFEB3) ∧
    decode (.rxFrame 0x7EFF0649000000FEB2EF) = .ok (.rx49Feedback 0x00 0x0000 0xFEB2) ∧
    decode (.rxFrame 0x7EFF064B000000FEB0EF) = .ok (.rx4bFeedback 0x00 0x0000 0xFEB0) ∧
    decode (.rxFrame 0x7EFF064C000000FEAFEF) = .ok (.rx4cFeedback 0x00 0x0000 0xFEAF) ∧
    decode (.rxFrame 0x7EFF064D000000FEAEEF) = .ok (.rx4dFeedback 0x00 0x0000 0xFEAE) ∧
    decode (.rxFrame 0x7EFF064E000000FEADEF) = .ok (.rx4eFeedback 0x00 0x0000 0xFEAD) ∧
    decode (.rxFrame 0x7EFF064F00FFFFFCAEEF) = .ok (.rx4fFeedback 0x00 0xFFFF 0xFCAE) := by decide
theorem test_decode_other_frames :
    decode (.rxFrame 0x7EFF063D000007FEB7EF) = .ok (.rx3dPlayfinished 0x00 0x0007 0xFEB7) ∧
    decode (.rxFrame 0x7EFF0640000006FEB5EF) = .ok (.rx40Error 0x00 0x0006 0xFEB5) ∧
    decode (.rxFrame 0x7EFF0641011234FE73EF) = .ok (.rx41Ack 0x01 0x1234 0xFE73) ∧
    decode (.rxFrame 0x7EFF0603000005FEF3EF) = .ok (.rxUnlisted001f 0x03 0x00 0x0005 0xFEF3) ∧
    decode (.rxFrame 0x7EFF0620000000FEDBEF) = .ok (.rxUnlisted202f 0x20 0x00 0x0000 0xFEDB) ∧
    decode (.rxFrame 0x7EFF0637000000FEC4EF) = .ok (.rxUnlisted3037 0x37 0x00 0x0000 0xFEC4) ∧
    decode (.rxFrame 0x7EFF0639000000FEC2EF) = .ok (.rxUnlisted3839 0x39 0x00 0x0000 0xFEC2) ∧
    decode (.rxFrame 0x7EFF064A000000FEB1EF) = .ok (.rxUnlisted4a 0x00 0x0000 0xFEB1) ∧
    decode (.rxFrame 0x7EFF0650000000FEABEF) = .ok (.rxUnlisted505f 0x50 0x00 0x0000 0xFEAB) ∧
    decode (.rxFrame 0x7EFF067E00EF7EFD10EF) = .ok (.rxUnlisted607f 0x7E 0x00 0xEF7E 0xFD10) ∧
    decode (.rxFrame 0x7EFF06FF000000FDFCEF) = .ok (.rxUnlisted80ff 0xFF 0x00 0x0000 0xFDFC) := by decide
theorem test_decode_refuses_non_frames :
    decode (.rxFrame 0x7FFF063D000007FEB7EF) = .error .notAFrame ∧
    decode (.rxFrame 0x7EFE063D000007FEB7EF) = .error .notAFrame ∧
    decode (.rxFrame 0x7EFF073D000007FEB7EF) = .error .notAFrame ∧
    decode (.txFrame 0x7EFF0603000005FEF3EE) = .error .notAFrame ∧
    decode (.txFrame 0x7EFF0603020005FEF1EF) = .error .badTxAckFlag ∧
    decode (.txFrame 0x7EFF0603000005FFF2EF) = .error .badTxChecksum := by decide
theorem test_decode_transmitted_frames :
    decode (.txFrame 0x7EFF0603000005FEF3EF) = .ok (.txFrame 0x03 false 0x0005) ∧
    decode (.txFrame 0x7EFF0603010005FEF2EF) = .ok (.txFrame 0x03 true 0x0005) := by decide
theorem test_decode_byte_steps :
    decode (.rxByte 0x07E) = .ok (.rxstepIdle 0x7E) ∧
    decode (.rxByte 0x1FF) = .ok (.rxstepExpectVersion 0xFF) ∧
    decode (.rxByte 0x206) = .ok (.rxstepExpectLength 0x06) ∧
    decode (.rxByte 0x33D) = .ok (.rxstepExpectCommand 0x3D) ∧
    decode (.rxByte 0x400) = .ok (.rxstepExpectAck 0x00) ∧
    decode (.rxByte 0x500) = .ok (.rxstepExpectParamHigh 0x00) ∧
    decode (.rxByte 0x607) = .ok (.rxstepExpectParamLow 0x07) ∧
    decode (.rxByte 0x7FE) = .ok (.rxstepExpectChecksumHigh 0xFE) ∧
    decode (.rxByte 0x8B7) = .ok (.rxstepExpectChecksumLow 0xB7) ∧
    decode (.rxByte 0x9EF) = .ok (.rxstepExpectEnd 0xEF) ∧
    decode (.rxByte 0xA00) = .error .unreachableRxCode ∧
    decode (.rxByte 0xFFF) = .error .unreachableRxCode := by decide
theorem test_table_words :
    decodeTableWord 64 0x40000000000003E8 = some (.waitev 1000) ∧
    decodeTableWord 64 0x3100000000000000 = none ∧
    decodeTableWord 80 0x7EFF063D000007FEB7EF = some (.rx3dPlayfinished 0x00 0x0007 0xFEB7) ∧
    decodeTableWord 12 0x4A5 = some (.rxstepExpectAck 0xA5) ∧
    decodeTableWord 16 0x4A5 = some (.rxstepExpectAck 0xA5) ∧
    decodeTableWord 16 0x14A5 = none ∧ decodeTableWord 8 0 = none := by decide

/-! ### FrameCodec (V10 to V14) -/

theorem test_checksum_of_play : after (exec (.checksum 0xFF 0x06 0x03 0x00 0x00 0x05) st) (·.codecResult) =
    some (.checksum 0xFEF3) := by decide
theorem test_checksum_largest_sum :
    after (exec (.checksum 0xFF 0xFF 0xFF 0xFF 0xFF 0xFF) st) (·.codecResult) =
      some (.checksum 0xFA06) := by decide
theorem test_encode_big_endian : after (exec (.encode 0x42 0x00 0x0201) st) (·.codecResult) =
    some (.frame (Frame.ofBits 0x7EFF0642000201FEB6EF)) := by decide
theorem test_encode_extreme : after (exec (.encode 0xFF 0xFF 0xFFFF) st) (·.codecResult) =
    some (.frame (Frame.ofBits 0x7EFF06FFFFFFFFFAFFEF)) := by decide
theorem test_decode_drops_ack_flag :
    after (exec (.decode (Frame.ofBits 0x7EFF0641011234FE73EF)) st) (·.codecResult) =
      some (.pair 0x41 0x1234) := by decide
theorem test_decode_unsigned :
    after (exec (.decode (Frame.ofBits 0x7EFF064F00FFFFFCAEEF)) st) (·.codecResult) =
      some (.pair 0x4F 65535) := by decide
theorem test_validate_accepts :
    after (exec (.validate (Frame.ofBits 0x7EFF063D000008FEB6EF)) st) (·.codecResult) =
      some (.valid true) := by decide
theorem test_validate_one_failing_test_each :
    validateFrame (Frame.ofBits 0x7FFF063D000007FEB7EF) = false ∧
    validateFrame (Frame.ofBits 0x7EFE063D000007FEB7EF) = false ∧
    validateFrame (Frame.ofBits 0x7EFF073D000007FEB7EF) = false ∧
    validateFrame (Frame.ofBits 0x7EFF063D000007FEB7EE) = false ∧
    validateFrame (Frame.ofBits 0x7EFF063D000007FEB6EF) = false ∧
    validateFrame (Frame.ofBits 0x7EFF063D000007FFB7EF) = false ∧
    validateFrame (Frame.ofBits 0x7EFF063D000008FEB7EF) = false ∧
    validateFrame (Frame.ofBits 0x7EFF0603000005FFF2EF) = false := by decide

/-! ### Byte steps (V17, V19 to V23) -/

theorem test_byte_steps_to_parameter :
    after (exec (.rxstepIdle 0x7E) st) (·.rxState) = some .expectVersion ∧
    after (exec (.rxstepIdle 0xEF) st) (fun t => (t.rxState, t.report)) = some (.idle, .noData) ∧
    after (exec (.rxstepExpectVersion 0xFF) st) (·.rxState) = some .expectLength ∧
    after (exec (.rxstepExpectLength 0x06) st) (·.rxState) = some .expectCommand ∧
    after (exec (.rxstepExpectCommand 0x3D) st) (fun t => (t.rxState, t.rxf.command)) =
      some (.expectAck, 0x3D) ∧
    after (exec (.rxstepExpectAck 0x01) st) (fun t => (t.rxState, t.rxf.ackFlag)) =
      some (.expectParamHigh, 0x01) := by decide
theorem test_byte_steps_to_end :
    after (exec (.rxstepExpectParamHigh 0x7E) st) (fun t => (t.rxState, t.rxf.paramHi)) =
      some (.expectParamLow, 0x7E) ∧
    after (exec (.rxstepExpectParamLow 0x07) st) (fun t => (t.rxState, t.rxf.paramLo)) =
      some (.expectChecksumHigh, 0x07) ∧
    after (exec (.rxstepExpectChecksumHigh 0xFE) st) (fun t => (t.rxState, t.rxf.cksumHi)) =
      some (.expectChecksumLow, 0xFE) ∧
    after (exec (.rxstepExpectChecksumLow 0xB7) st) (fun t => (t.rxState, t.rxf.cksumLo)) =
      some (.expectEnd, 0xB7) ∧
    after (exec (.rxstepExpectEnd 0xEF) { st with rxf := rxfV17 }) (fun t => (t.rxState, t.report)) =
      some (.idle, .frameReady 0x3D 0x0007) := by decide
theorem test_byte_step_errors :
    after (exec (.rxstepExpectVersion 0xFE) st) (fun t => (t.rxState, t.report)) =
      some (.idle, .malformed .badVersion) ∧
    after (exec (.rxstepExpectLength 0x07) st) (fun t => (t.rxState, t.report)) =
      some (.idle, .malformed .badLength) ∧
    after (exec (.rxstepExpectEnd 0xEE) { st with rxf := rxfV17 }) (·.report) =
      some (.malformed .badEnd) ∧
    after (exec (.rxstepExpectEnd 0xEF) { st with rxf := { rxfV17 with cksumLo := 0xB6 } }) (·.report) =
      some (.malformed .badChecksum) ∧
    after (exec (.rxstepExpectEnd 0xEE) { st with rxf := { rxfV17 with cksumLo := 0xB6 } }) (·.report) =
      some (.malformed .badEnd) := by decide

/-! ### Received frames (V30 to V36) -/

theorem test_status_bit_events :
    receive 0x7EFF063A000001FEC0EF st = some (.usbInserted, 0x0001, 0x3A, true) ∧
    receive 0x7EFF063A00FFFEFCC4EF st = some (.cardInserted, 0xFFFE, 0x3A, true) ∧
    receive 0x7EFF063B000003FEBDEF st = some (.usbRemoved, 0x0003, 0x3B, true) ∧
    receive 0x7EFF063B000002FEBEEF st = some (.cardRemoved, 0x0002, 0x3B, true) ∧
    receive 0x7EFF063F000003FEB9EF st = some (.usbOnline, 0x0003, 0x3F, true) ∧
    receive 0x7EFF063F000002FEBAEF st = some (.cardOnline, 0x0002, 0x3F, true) := by
  refine ⟨?_, ?_, ?_, ?_, ?_, ?_⟩ <;> decide
theorem test_no_match_leaves_no_trace :
    receive 0x7EFF063F000000FEBCEF stEvent = some (.playFinished, 0x0007, 0x3D, true) ∧
    receive 0x7EFF063F000100FEBBEF stEvent = some (.playFinished, 0x0007, 0x3D, true) ∧
    receive 0x7EFF063A000000FEC1EF stEvent = some (.playFinished, 0x0007, 0x3D, true) ∧
    receive 0x7EFF063B000000FEC0EF stEvent = some (.playFinished, 0x0007, 0x3D, true) := by decide
theorem test_single_kind_events :
    receive 0x7EFF063D00FFFFFCC0EF st = some (.playFinished, 0xFFFF, 0x3D, true) ∧
    receive 0x7EFF0640000006FEB5EF st = some (.error, 0x0006, 0x40, true) := by decide
theorem test_feedback_events :
    receive 0x7EFF063C000009FEB6EF st = some (.feedBack, 0x0009, 0x3C, true) ∧
    receive 0x7EFF063E000000FEBDEF st = some (.feedBack, 0x0000, 0x3E, true) ∧
    receive 0x7EFF0642000000FEB9EF st = some (.feedBack, 0x0000, 0x42, true) ∧
    receive 0x7EFF064300000FFEA9EF st = some (.feedBack, 0x000F, 0x43, true) ∧
    receive 0x7EFF0644000000FEB7EF st = some (.feedBack, 0x0000, 0x44, true) ∧
    receive 0x7EFF0645000000FEB6EF st = some (.feedBack, 0x0000, 0x45, true) ∧
    receive 0x7EFF0646000000FEB5EF st = some (.feedBack, 0x0000, 0x46, true) ∧
    receive 0x7EFF0647000000FEB4EF st = some (.feedBack, 0x0000, 0x47, true) := by
  refine ⟨?_, ?_, ?_, ?_, ?_, ?_, ?_, ?_⟩ <;> decide
theorem test_feedback_events_rest :
    receive 0x7EFF0648000000FEB3EF st = some (.feedBack, 0x0000, 0x48, true) ∧
    receive 0x7EFF0649000000FEB2EF st = some (.feedBack, 0x0000, 0x49, true) ∧
    receive 0x7EFF064B000000FEB0EF st = some (.feedBack, 0x0000, 0x4B, true) ∧
    receive 0x7EFF064C000000FEAFEF st = some (.feedBack, 0x0000, 0x4C, true) ∧
    receive 0x7EFF064D000000FEAEEF st = some (.feedBack, 0x0000, 0x4D, true) ∧
    receive 0x7EFF064E000000FEADEF st = some (.feedBack, 0x0000, 0x4E, true) ∧
    receive 0x7EFF064F00FFFFFCAEEF st = some (.feedBack, 0xFFFF, 0x4F, true) := by
  refine ⟨?_, ?_, ?_, ?_, ?_, ?_, ?_⟩ <;> decide
theorem test_ack_clears_pending_only :
    after (exec (.rx41Ack 0x00 0x0000 0xFEBA) { stPending 1000 2000 with ev := stEvent.ev })
      (fun t => (t.pending, t.ev)) =
      some ({ (stPending 1000 2000).pending with valid := false }, stEvent.ev) := by decide
theorem test_ack_with_nothing_pending :
    after (exec (.rx41Ack 0x01 0x1234 0xFE73) stEvent) (fun t => decide (t = stEvent)) = some true := by
  decide
theorem test_unlisted_commands :
    receiveError 0x7EFF0600000000FEFBEF st = some (.wrongStack, 0x00, true, .malformed .unlistedCommand) ∧
    receiveError 0x7EFF0620000000FEDBEF st = some (.wrongStack, 0x20, true, .malformed .unlistedCommand) ∧
    receiveError 0x7EFF0630000000FECBEF st = some (.wrongStack, 0x30, true, .malformed .unlistedCommand) ∧
    receiveError 0x7EFF0639000000FEC2EF st = some (.wrongStack, 0x39, true, .malformed .unlistedCommand) ∧
    receiveError 0x7EFF064A000000FEB1EF st = some (.wrongStack, 0x4A, true, .malformed .unlistedCommand) ∧
    receiveError 0x7EFF0650000000FEABEF st = some (.wrongStack, 0x50, true, .malformed .unlistedCommand) ∧
    receiveError 0x7EFF067E00EF7EFD10EF st = some (.wrongStack, 0x7E, true, .malformed .unlistedCommand) ∧
    receiveError 0x7EFF06FF000000FDFCEF st = some (.wrongStack, 0xFF, true, .malformed .unlistedCommand) := by
  refine ⟨?_, ?_, ?_, ?_, ?_, ?_, ?_, ?_⟩ <;> decide
theorem test_bad_checksum_keeps_command :
    receiveError 0x7EFF064300000FFEA8EF stEvent =
      some (.wrongStack, 0x3D, true, .malformed .badChecksum) := by decide

/-! ### The time-out check (V37, V38, V41) -/

theorem test_timeout_at_exact_instant :
    after (step (stPending 1000 1499)) (fun t => (t.pending.valid, t.report)) = some (true, .noData) ∧
    after (step (stPending 1000 1500)) (fun t => (t.pending.valid, t.report, t.ev.kind, t.ev.available)) =
      some (false, .timedOut, .timeOut, true) := by decide
theorem test_timeout_across_clock_wrap :
    after (step (stPending 0xFFFFFF00 0x000000F3)) (·.report) = some .noData ∧
    after (step (stPending 0xFFFFFF00 0x000000F4)) (·.report) = some .timedOut := by decide

/-! ### Host operations (V42, V43, V46, V48 to V50, V55 to V57, V74) -/

theorem test_nop : after (exec .nop stEvent) (fun t => decide (t = { stEvent with accepted := true })) =
    some true := by decide
theorem test_reserved_codes_change_nothing :
    after (exec .reservedOpA stEvent) (fun t => decide (t = stEvent)) = some true ∧
    after (exec .reservedOpB stEvent) (fun t => decide (t = stEvent)) = some true ∧
    after (exec .reservedOpC stEvent) (fun t => decide (t = stEvent)) = some true ∧
    after (exec .reservedOpD stEvent) (fun t => decide (t = stEvent)) = some true ∧
    after (exec .reservedOpE stEvent) (fun t => decide (t = stEvent)) = some true ∧
    after (exec .reservedOpF stEvent) (fun t => decide (t = stEvent)) = some true := by decide
theorem test_reads :
    after (exec .rdkind stEvent) (fun t => (t.result, t.ev.available)) =
      some (.kind .playFinished, false) ∧
    after (exec .rdparam stEvent) (fun t => (t.result, t.ev.available)) =
      some (.parameter 0x0007, false) ∧
    after (exec .rdcmd stEvent) (fun t => (t.result, t.ev.available)) = some (.command 0x3D, false) := by
  decide
theorem test_poll_begins :
    after (exec .poll st) (fun t => (busy t, t.rpoll)) = some (true, .draining) := by decide
theorem test_init_without_reset :
    after (exec (.init true false) stEvent)
      (fun t => (t.ackMode, t.ev, t.result, busy t)) =
      some (true, { stEvent.ev with kind := .cardOnline, available := false }, .bit true, false) := by
  decide
theorem test_init_with_reset :
    after (exec (.init true true) stEvent) (fun t => (t.ackMode, busy t, t.ev, t.txb.ackFlag)) =
      some (true, true, stEvent.ev, 0x01) := by decide
theorem test_send_fills_buffer :
    after (exec (.send 0x03 0x0005 false) st) (fun t => (t.txb.toBits, t.txlog)) =
      some (0x7EFF0603000005FEF3EF, []) := by decide
theorem test_send_blocks_only_with_ack :
    after (exec (.send 0x03 0x0006 true) { stPending 1000 1000 with tmPhase := .idle, rpoll := .none })
      (·.tmPhase) = some (.sendBlocked .direct 0x03 0x0006) ∧
    after (exec (.send 0x03 0x0006 false) { stPending 1000 1000 with tmPhase := .idle, rpoll := .none })
      (fun t => t.txb.toBits) = some 0x7EFF0603000006FEF2EF := by decide
theorem test_sendm_in_both_modes :
    after (exec (.sendm 0x03 0x0005) st) (fun t => t.txb.toBits) = some 0x7EFF0603000005FEF3EF ∧
    after (exec (.sendm 0x03 0x0001) { st with ackMode := true }) (fun t => t.txb.toBits) =
      some 0x7EFF0603010001FEF6EF := by decide
theorem test_query_asks_for_ack :
    after (exec (.query 0x43 0x0000) st) (fun t => t.txb.toBits) = some 0x7EFF0643010000FEB7EF := by decide
theorem test_waitev_begins :
    after (exec (.waitev 500) st) (fun t => (t.tmPhase, t.rpoll)) =
      some (.waitEvent .direct 1000 500, .draining) := by decide
theorem test_waitev_ends :
    after (step { st with tmPhase := .waitEvent .direct 1000 0, rpoll := .finished })
      (fun t => (t.result, busy t)) = some (.bit false, false) ∧
    after (step { stEvent with tmPhase := .waitEvent .direct 1000 500, rpoll := .finished })
      (fun t => (t.result, t.ev)) = some (.bit true, stEvent.ev) := by decide
theorem test_tx_frame_bytes :
    after (exec (.txFrame 0x03 true 0x0005) { st with txlog := [0xAA] }) (·.txlog) =
      some [0xAA, 0x7E, 0xFF, 0x06, 0x03, 0x01, 0x00, 0x05, 0xFE, 0xF2, 0xEF] := by decide
theorem test_send_records_transaction :
    after (step { st with tmPhase := .sendRecord .direct 0x03 0x0005 })
      (fun t => (t.pending, t.result, busy t)) =
      some ({ valid := true, command := 0x03, argument := 0x0005, requiresAck := true, sentAt := 1000,
              deadline := 500 }, .void, false) := by decide
theorem test_quiescence :
    after (step { st with clock := 1009, tmPhase := .sendQuiesce .direct 1000 }) busy = some true ∧
    after (step { st with clock := 1010, tmPhase := .sendQuiesce .direct 1000 }) busy = some false := by
  decide
theorem test_query_result_is_32_bits :
    after (step { st with tmPhase := .waitEvent .query 1000 500, rpoll := .finished,
                          ev := { kind := .feedBack, parameter := 0xFFFF, command := 0x4F, available := true } })
      (fun t => (t.result, t.ev.available)) = some (.query 0x0000FFFF, false) ∧
    after (step { stEvent with tmPhase := .waitEvent .query 1000 500, rpoll := .finished })
      (fun t => (t.result, t.ev.available)) = some (.query 0xFFFFFFFF, false) := by decide

/-! ### One step from reset for each format -/

theorem test_step_runs_host_word :
    after (step (State.reset.withFetchWord 64 0x3000000000000000)) (fun t => (t.accepted, t.tmPhase)) =
      some (true, .poll) := by decide
theorem test_step_runs_received_frame :
    after (step (State.reset.withFetchWord 80 0x7EFF063D000007FEB7EF))
      (fun t => (t.ev.kind, t.ev.parameter, t.ev.available, t.rpoll)) =
      some (.playFinished, 0x0007, true, .finished) := by decide
theorem test_step_runs_byte_step :
    after (step (State.reset.withFetchWord 12 0x4A5)) (fun t => (t.rxf.ackFlag, t.rxState, t.rxq)) =
      some (0xA5, .expectParamHigh, []) := by decide
theorem test_reset_line_keeps_queue :
    after (step { stPoll .expectAck [0x00, 0x07] with moves := [.reset] })
      (fun t => (t.rxState, t.ev.available, t.tmPhase, t.rxq)) =
      some (.idle, false, .idle, [0x00, 0x07]) := by decide

/-! ### Witnesses: for each statement with hypotheses, a state and operands that meet them -/

theorem witness_DecodeEncodeAgree :
    WellFormed (.rx3fCardonline 0x00 0x0002 0xFEBA) ∧ WellFormed (.rxUnlisted80ff 0x80 0x00 0x0000 0x0000) ∧
    WellFormed (.checksum 0xFF 0x06 0x03 0x00 0x00 0x05) ∧
    WellFormed (.decode (Frame.ofBits 0x7EFF063D000007FEB7EF)) ∧ WellFormed (.init true false) := by decide
theorem witness_EveryFrameHasItsRow :
    (Frame.ofBits 0x7EFF063D000007FEB7EF).hasConstants = true ∧
    (Frame.ofBits 0x7EFF06FFFFFFFFFFFFEF).hasConstants = true := by decide
theorem witness_StepRunsDecodedInstruction :
    fetchWord (stMove (.host 0x3000000000000000)) = some (.port, .host 0x3000000000000000, st) ∧
    decode (.host 0x3000000000000000) = .ok .poll ∧
    fetchWord (stPoll .idle [0x7E]) = some (.rxByte, .rxByte 0x07E, stPoll .idle []) ∧
    decode (.rxByte 0x07E) = .ok (.rxstepIdle 0x7E) := by
  refine ⟨rfl, ?_, rfl, ?_⟩ <;> decide
theorem witness_WhereWordsAreFetched :
    takeMove (stMove (.host 0x3000000000000000)) = (.host 0x3000000000000000, st) ∧
    takeMove (stMove (.codec .decode 0)) = (.codec .decode 0, st) ∧
    takeMove (stPoll .idle [0x7E]) = (.block, stPoll .idle [0x7E]) ∧
    (stPoll .idle [0x7E]).rpoll = .draining ∧
    ({ stPoll .idle [] with rpoll := .frame } : State).rpoll = .frame ∧
    ({ st with tmPhase := .sendWrite .direct true 3 5 } : State).rpoll = .none :=
  ⟨rfl, rfl, rfl, rfl, rfl, rfl⟩
theorem witness_ValidChecksumRange :
    validateFrame (Frame.ofBits 0x7EFF0600000000FEFBEF) = true ∧
    validateFrame (Frame.ofBits 0x7EFF06FFFFFFFFFAFFEF) = true := by decide
theorem witness_SingleBitErrorFails :
    validateFrame (Frame.ofBits 0x7EFF063D000007FEB7EF) = true ∧ 0 < 80 ∧ 79 < 80 := by decide
theorem witness_ByteStepWritesOnlyReceiver : ∃ t, exec (rxStepRow .expectAck 0xA5) st = .next t := ⟨_, rfl⟩
theorem witness_PositionAdvancesOrReportsIdle :
    (∃ t, exec (rxStepRow .expectVersion 0xFE) st = .next t ∧ t.rxState = .idle ∧ t.report ≠ .noData) ∧
    (∃ t, exec (rxStepRow .expectVersion 0xFF) st = .next t ∧ t.rxState ≠ .idle) :=
  ⟨⟨_, rfl, by decide⟩, ⟨_, rfl, by decide⟩⟩
theorem witness_IdleWithinNineBytes :
    (stPoll .expectVersion []).rxState ≠ .idle ∧ (List.replicate 9 (0xFF : Byte)).length = 9 := by decide
theorem witness_TenBytesReadyIffValid :
    st.rxState = .idle ∧ validateFrame (Frame.ofBits 0x7EFF063D000007FEB7EF) = true ∧
    validateFrame (Frame.ofBits 0x7EFF063D000007FEB6EF) = false := by decide
theorem witness_NoiseThenFrameReportsOnce :
    st.rxState = .idle ∧ (∀ b ∈ ([0x00, 0x12, 0xEF, 0xFF] : List Byte), b ≠ 0x7E) ∧
    validateFrame (Frame.ofBits 0x7EFF063D000007FEB7EF) = true := by decide
/-- Each of the four errors, its byte at the head of RXQ. -/
theorem witness_FramingErrorTakenAtItsByte :
    (takeMove (stPoll .expectVersion [0xFE, 0x00]) = (.block, stPoll .expectVersion [0xFE, 0x00]) ∧
      (stPoll .expectVersion [0xFE, 0x00]).rpoll = .draining ∧
      (stPoll .expectVersion [0xFE, 0x00]).rxState = .expectVersion ∧ (0xFE : Byte) ≠ 0xFF) ∧
    (takeMove (stPoll .expectLength [0x07]) = (.block, stPoll .expectLength [0x07]) ∧
      (stPoll .expectLength [0x07]).rxState = .expectLength ∧ (0x07 : Byte) ≠ 0x06) ∧
    (takeMove (stPoll .expectEnd [0xEE]) = (.block, stPoll .expectEnd [0xEE]) ∧
      (stPoll .expectEnd [0xEE]).rxState = .expectEnd ∧ (0xEE : Byte) ≠ 0xEF) ∧
    (takeMove (stPoll .expectEnd [0xEF]) = (.block, stPoll .expectEnd [0xEF]) ∧
      (stPoll .expectEnd [0xEF]).rxq = 0xEF :: [] ∧
      pairU16 (stPoll .expectEnd [0xEF]).rxf.cksumHi (stPoll .expectEnd [0xEF]).rxf.cksumLo ≠
        checksumOf 0xFF 0x06 (stPoll .expectEnd [0xEF]).rxf.command
          (stPoll .expectEnd [0xEF]).rxf.ackFlag (stPoll .expectEnd [0xEF]).rxf.paramHi
          (stPoll .expectEnd [0xEF]).rxf.paramLo) := by
  refine ⟨⟨rfl, ?_⟩, ⟨rfl, ?_⟩, ⟨rfl, ?_⟩, ⟨rfl, ?_⟩⟩ <;> decide
theorem witness_TimeoutCheckedWhenQueueEmpty :
    takeMove (stPending 1000 1500) = (.block, stPending 1000 1500) ∧
    (stPending 1000 1500).rpoll = .draining ∧ (stPending 1000 1500).rxq = [] ∧
    timeoutDue (stPending 1000 1500) = true ∧ timeoutDue (stPending 1000 1499) = false := by
  refine ⟨rfl, ?_⟩
  decide
theorem witness_PollDeliversOneFrame :
    ∃ (s : State) (f : Frame), s.tmPhase = .idle ∧ s.rpoll = .none ∧ s.rxState = .idle ∧
      s.moves = [.host (hostWord 0x3 false false 0 0 0)] ∧ s.rxq = f.bytes ++ [0x7E, 0xFF] ∧
      validateFrame f = true ∧ classify f.command f.parameter = .event .playFinished :=
  ⟨{ st with
      moves := [.host (hostWord 0x3 false false 0 0 0)]
      rxq := (Frame.ofBits 0x7EFF063D000007FEB7EF).bytes ++ [0x7E, 0xFF] },
    Frame.ofBits 0x7EFF063D000007FEB7EF, rfl, rfl, rfl, rfl, rfl, by decide, by decide⟩
theorem witness_PollWithNothingToReport :
    ∃ s : State, s.tmPhase = .idle ∧ s.rpoll = .none ∧ s.rxq = [] ∧ s.pending.valid = false ∧
      s.ev.available = true ∧ s.moves = [.host (hostWord 0x3 false false 0 0 0)] :=
  ⟨{ stEvent with moves := [.host (hostWord 0x3 false false 0 0 0)] }, rfl, rfl, rfl, rfl, rfl, rfl⟩
theorem witness_AvailableRisesOnlyInPoll :
    ∃ t, step (stPoll .expectVersion [0xFE]) = .next t ∧
      (stPoll .expectVersion [0xFE]).ev.available = false ∧ t.ev.available = true := ⟨_, rfl, rfl, rfl⟩
theorem witness_QueueConsumedFromItsHead :
    (∃ t, step (stPoll .idle [0x7E, 0xFF]) = .next t ∧ t.rxq = [0xFF]) ∧
    (∃ t, step (stMove (.envRx 0x7E)) = .next t ∧ t.rxq = [0x7E]) ∧
    (∃ t, step { stPoll .idle [0x7E, 0xFF] with moves := [.envDrop 1] } = .next t ∧ t.rxq = [0x7E]) :=
  ⟨⟨_, rfl, rfl⟩, ⟨_, rfl, rfl⟩, ⟨_, rfl, rfl⟩⟩
theorem witness_StatusBitFrames :
    (0x0001 : U16).getLsbD 0 = true ∧ (0x0002 : U16).getLsbD 0 = false ∧ (0x0002 : U16).getLsbD 1 = true ∧
    (0xFFFC : U16).getLsbD 0 = false ∧ (0xFFFC : U16).getLsbD 1 = false := by decide
theorem witness_UnlistedFramesFail :
    (0x1F : Byte).toNat ≤ 0x1F ∧ 0x20 ≤ (0x2F : Byte).toNat ∧ (0x2F : Byte).toNat ≤ 0x2F ∧
    0x30 ≤ (0x30 : Byte).toNat ∧ (0x37 : Byte).toNat ≤ 0x37 ∧ 0x38 ≤ (0x38 : Byte).toNat ∧
    (0x39 : Byte).toNat ≤ 0x39 ∧ 0x50 ≤ (0x50 : Byte).toNat ∧ (0x5F : Byte).toNat ≤ 0x5F ∧
    0x60 ≤ (0x60 : Byte).toNat ∧ (0x7F : Byte).toNat ≤ 0x7F ∧ 0x80 ≤ (0x80 : Byte).toNat := by decide
theorem witness_BadChecksumFrames : (0xFEB6 : U16) ≠ frameChecksum 0x3D 0x00 0x0007 := by decide
theorem witness_CardUsbOnlineNeverWritten :
    ∃ s t, step s = .next t ∧ (takeMove s).1 ≠ .reset ∧ t.ev.kind = .cardUsbOnline :=
  ⟨{ st with ev := { stEvent.ev with kind := .cardUsbOnline } }, _, rfl, by decide, rfl⟩
/-- For either value of the operand, and with a transaction pending where that does not hold the word back. -/
theorem witness_SendPutsFrameInBuffer :
    st.tmPhase = .idle ∧ st.pending.valid = false ∧ st.ackMode = false ∧
    ({ stPending 1000 1000 with tmPhase := .idle } : State).pending.valid = true := by decide
theorem witness_SendBlocksWhilePending :
    ({ stPending 1000 1000 with tmPhase := .idle, ackMode := true } : State).tmPhase = .idle ∧
    ({ stPending 1000 1000 with tmPhase := .idle, ackMode := true } : State).pending.valid = true ∧
    takeMove { stPending 1000 1000 with tmPhase := .sendBlocked .query 3 6, rpoll := .finished } =
      (.block, { stPending 1000 1000 with tmPhase := .sendBlocked .query 3 6, rpoll := .finished }) :=
  ⟨rfl, rfl, rfl⟩
theorem witness_AckSendRecordsTransaction :
    ∃ s : State, s.tmPhase = .idle ∧ s.rpoll = .none ∧ s.pending.valid = false ∧
      s.moves =
        [.host (hostWord 0x2 true false 0x03 0x0005 0), .envTick 0, .block, .envTick 7, .block] :=
  ⟨{ st with
      moves := [.host (hostWord 0x2 true false 0x03 0x0005 0), .envTick 0, .block, .envTick 7, .block] },
    rfl, rfl, rfl, rfl⟩
/-- With a transaction pending and bytes waiting; the delay at and just below its end. -/
theorem witness_PlainSendWaitsQuiescence :
    ∃ s : State, s.tmPhase = .idle ∧ s.rpoll = .none ∧ s.pending.valid = true ∧ s.rxq = [0x7E] ∧
      s.moves = [.host (hostWord 0x2 false false 0x03 0x0006 0), .block, .envTick 10, .block] :=
  ⟨{ stPending 1000 1000 with
      tmPhase := .idle, rpoll := .none, rxq := [0x7E]
      moves := [.host (hostWord 0x2 false false 0x03 0x0006 0), .block, .envTick 10, .block] },
    rfl, rfl, rfl, rfl, rfl⟩
/-- A state about to write an acknowledged frame, as a SEND leaves it. -/
def stWrite : State :=
  { State.reset with txb := encodeFrame 0x03 0x01 0x0005, tmPhase := .sendWrite .direct true 0x03 0x0005 }
theorem stWrite_inv : Inv stWrite where
  pending_requiresAck := nofun
  pending_deadline := nofun
  timeout_configured := rfl
  poll_inside_operation := by simp [stWrite, State.reset, TmPhase.polls]
  frame_valid := nofun
  write_exclusive := fun _ _ _ _ => rfl
  record_exclusive := fun _ _ _ h => nomatch h
  txb_encoded := by
    intro o a c g h
    cases h
    rfl
theorem witness_WritesOnlyWholeFramesOneInFlight :
    Inv stWrite ∧ ∃ t, step stWrite = .next t ∧ t.txlog ≠ stWrite.txlog :=
  ⟨stWrite_inv, _, rfl, by decide⟩
theorem witness_PendingResolvedOnlyByAckOrTimeout :
    (∃ t, step (stPending 1000 1500) = .next t ∧ (stPending 1000 1500).pending.valid = true ∧
      t.pending.valid = false) ∧
    (∃ t, step { stPending 1000 1000 with rpoll := .frame, rxf := ⟨0x41, 0, 0, 0, 0xFE, 0xBA⟩ } = .next t ∧
      t.pending.valid = false) ∧
    (∃ t, step { st with tmPhase := .sendRecord .query 0x43 0x0000 } = .next t ∧ st.pending.valid = false ∧
      t.pending.valid = true) :=
  ⟨⟨_, rfl, rfl, rfl⟩, ⟨_, rfl, rfl⟩, ⟨_, rfl, rfl, rfl⟩⟩
theorem witness_WaitevPollsThenTests :
    st.tmPhase = .idle ∧
    takeMove { st with tmPhase := .waitEvent .direct 1000 0, rpoll := .finished } =
      (.block, { st with tmPhase := .waitEvent .direct 1000 0, rpoll := .finished }) := ⟨rfl, rfl⟩
theorem witness_ReadsReturnFieldAndClearFlag : stEvent.tmPhase = .idle ∧ stEvent.ev.available = true := by
  decide
theorem witness_InitWithoutResetSucceeds : st.tmPhase = .idle := by decide
/-- INIT in each of its five later places. -/
theorem witness_InitWaitsSettlesAndJudges :
    takeMove { st with tmPhase := .sendRecord .init 0x0C 0 } =
      (.block, { st with tmPhase := .sendRecord .init 0x0C 0 }) ∧
    takeMove { st with tmPhase := .sendQuiesce .init 990 } =
      (.block, { st with tmPhase := .sendQuiesce .init 990 }) ∧
    takeMove { st with tmPhase := .waitStart .init 2000 } =
      (.block, { st with tmPhase := .waitStart .init 2000 }) ∧
    takeMove { st with tmPhase := .waitEvent .init 1000 2000, rpoll := .finished } =
      (.block, { st with tmPhase := .waitEvent .init 1000 2000, rpoll := .finished }) ∧
    takeMove { st with tmPhase := .initSettle true 1000 } =
      (.block, { st with tmPhase := .initSettle true 1000 }) := ⟨rfl, rfl, rfl, rfl, rfl⟩
theorem witness_QueryWaitsAndAnswers :
    takeMove { st with tmPhase := .sendRecord .query 0x43 0 } =
      (.block, { st with tmPhase := .sendRecord .query 0x43 0 }) ∧
    takeMove { st with tmPhase := .waitStart .query 500 } =
      (.block, { st with tmPhase := .waitStart .query 500 }) ∧
    takeMove { stEvent with tmPhase := .waitEvent .query 1000 500, rpoll := .finished } =
      (.block, { stEvent with tmPhase := .waitEvent .query 1000 500, rpoll := .finished }) :=
  ⟨rfl, rfl, rfl⟩
theorem witness_QueryLeavesNoEventAvailable :
    ∃ t, step { stEvent with tmPhase := .waitEvent .query 1000 500, rpoll := .finished } = .next t ∧
      t.tmPhase = .idle := ⟨_, rfl, rfl⟩
theorem witness_AckModeWrittenOnlyByInit :
    (∃ t, step (stMove (.host 0x1800000000000000)) = .next t ∧ t.ackMode ≠ st.ackMode) ∧
    (∃ t, step { stMove .reset with ackMode := true } = .next t ∧ t.ackMode ≠ true) :=
  ⟨⟨_, rfl, by decide⟩, ⟨_, rfl, by decide⟩⟩
theorem witness_BusyAcceptsNothing :
    ({ stPoll .idle [] with moves := [.host 0x5000000000000000] } : State).moves =
      .host 0x5000000000000000 :: [] ∧ (stPoll .idle []).tmPhase ≠ .idle := ⟨rfl, by decide⟩
theorem witness_NopAndRefusedCodes :
    st.tmPhase = .idle ∧
    (stMove (.host 0x3100000000000000)).moves = .host 0x3100000000000000 :: [] ∧
    decode (.host 0x3100000000000000) = .error .nonZeroZeroBits := ⟨rfl, rfl, by decide⟩
theorem witness_AtRestNothingHappens :
    takeMove st = (.block, st) ∧ st.tmPhase = .idle ∧ st.rpoll = .none := ⟨rfl, rfl, rfl⟩
theorem witness_EnvironmentMoves :
    (stMove (.envRx 0xA5)).moves = .envRx 0xA5 :: [] ∧
    (stMove (.envTick 0xFFFFFFFF)).moves = .envTick 0xFFFFFFFF :: [] := ⟨rfl, rfl⟩
theorem witness_TransmitLogNeverRead : ∃ t, step stWrite = .next t := ⟨_, rfl⟩
theorem witness_ResetLineFromAnyState :
    ({ stPending 1000 1200 with moves := [.reset] } : State).moves = .reset :: [] := rfl
theorem witness_StepKeepsConsistency : Inv stWrite ∧ ∃ t, step stWrite = .next t :=
  ⟨stWrite_inv, _, rfl⟩

end Sys2Proof.Tests
end

/-! What one step does, said once for each agent that moves: the inversion lemma `step_moveStep`
from which the statements about the state are derived. -/

namespace Sys2Proof.Machine

/-! ### The step from the word it reads -/

theorem onNext_eq_next {f : State → State} {o : Host.Outcome State Fault Refusal} {t : State} :
    onNext f o = .next t ↔ ∃ u, o = .next u ∧ f u = t := by
  cases o <;> simp [onNext]

theorem step_of_fetchWord {s s' : State} {src : Source} {w : Code} {i : Instr}
    (hw : fetchWord s = some (src, w, s')) (hd : decode w = .ok i) :
    step s = onNext (commit src) (exec i s') := by
  rw [step, fetch_run hw hd]

theorem step_of_undecodable {s s' : State} {src : Source} {w : Code} {e : DecodeError}
    (hw : fetchWord s = some (src, w, s')) (hd : decode w = .error e) :
    step s = .next (otherMove s) := by
  simp [step, fetch, hw, hd]

theorem step_of_no_word {s : State} (hw : fetchWord s = none) : step s = .next (otherMove s) := by
  simp [step, fetch, hw]

/-- Taking the next move changes the moves to come alone. -/
theorem takeMove_eq (s : State) : ∃ m r, takeMove s = (m, { s with moves := r }) := by
  rcases takeMove_cases s with ⟨-, h⟩ | ⟨m, r, -, h⟩
  · exact ⟨.block, s.moves, h⟩
  · exact ⟨m, r, h⟩

/-! ### The words the block reads -/

/-- The frame assembled in RXF always has a row, chosen by its command and parameter. -/
theorem decode_assembledFrame (x : RxFields) :
    decode (.rxFrame (assembledFrame x).toBits) =
      .ok (rxRow x.command x.ackFlag (pairU16 x.paramHi x.paramLo) (pairU16 x.cksumHi x.cksumLo)) := by
  simp only [decode, decodeRxFrame, Frame.ofBits_toBits]
  rfl

/-- A transmit buffer that decodes holds exactly the frame that SEND encodes. -/
theorem decode_txFrame_toBits {f : Frame} {i : Instr} (h : decode (.txFrame f.toBits) = .ok i) :
    ∃ c a g, i = .txFrame c a g ∧ encodeFrame c (ackByte a) g = f := by
  simp only [decode, decodeTxFrame, Frame.ofBits_toBits] at h
  split at h
  · cases h
  · rename_i hc
    split at h
    · cases h
    · rename_i ha
      split at h
      · cases h
      · rename_i hk
        cases h
        refine ⟨_, _, _, rfl, ?_⟩
        have hack : ackByte (f.ackFlag == 0x01) = f.ackFlag := by
          by_cases h1 : f.ackFlag = 0x01
          · simp [h1, ackByte]
          · have h0 : f.ackFlag = 0x00 := by_contra fun h0 => ha ⟨h0, h1⟩
            simp [h0, ackByte]
        rw [hack, encodeFrame, ← not_ne_iff.mp hk]
        exact (eq_frameOf_of_hasConstants (by simpa using hc)).symm

/-- A byte step is `feedByte`. -/
theorem exec_rxStepRow_feedByte (s : State) (b : Byte) :
    exec (rxStepRow s.rxState b) s = .next (feedByte s b) := by
  unfold feedByte
  cases s.rxState <;> rfl

/-! ### The block's step, by its place in the poll -/

section
variable {s s' : State} (ht : takeMove s = (.block, s'))
include ht

theorem fetchWord_of_block : fetchWord s = blockWord s' := by rw [fetchWord, ht]

theorem otherMove_of_block : otherMove s = ownStep s' := by rw [otherMove, ht]

/-- Outside a poll the block makes one step of the operation in progress; the write of a SEND is TX_FRAME
of the buffer, which is `TxWrite` of the buffer (43_transaction.md R142). -/
theorem step_block_phase (hr : s'.rpoll = .none) : step s = .next (phaseStep s') := by
  have hown : otherMove s = phaseStep s' := by rw [otherMove_of_block ht, ownStep, hr]
  cases hp : s'.tmPhase with
  | sendWrite o a c g =>
    have hw : fetchWord s = some (.txFrame, .txFrame s'.txb.toBits, s') := by
      rw [fetchWord_of_block ht]; simp [blockWord, hr, hp]
    cases hd : decode (.txFrame s'.txb.toBits) with
    | error e => rw [step_of_undecodable hw hd, hown]
    | ok i =>
      obtain ⟨c', a', g', rfl, htxb⟩ := decode_txFrame_toBits hd
      have hphase : phaseStep s' = afterWrite (txWrite s'.txb s') := by simp [phaseStep, hp]
      rw [step_of_fetchWord hw hd, hphase, ← htxb]
      rfl
  | _ =>
    rw [step_of_no_word (by rw [fetchWord_of_block ht]; simp [blockWord, hr, hp]), hown]

/-- A poll takes the byte at the head of RXQ (41_receiver.md R102). -/
theorem step_block_byte {b : Byte} {q : List Byte} (hr : s'.rpoll = .draining) (hq : s'.rxq = b :: q) :
    step s = .next (afterByte (feedByte { s' with rxq := q } b)) := by
  have hw : fetchWord s = some (.rxByte, rxByteWord s'.rxState b, { s' with rxq := q }) := by
    rw [fetchWord_of_block ht]; simp [blockWord, hr, rxRead, hq]
  rw [step_of_fetchWord hw (decode_rxByteWord _ _)]
  exact congrArg (onNext _) (exec_rxStepRow_feedByte { s' with rxq := q } b)

/-- A poll that finds RXQ empty makes the time-out check (41_receiver.md R104). -/
theorem step_block_timeout (hr : s'.rpoll = .draining) (hq : s'.rxq = []) :
    step s = .next (timeoutCheck s') := by
  have hw : fetchWord s = none := by rw [fetchWord_of_block ht]; simp [blockWord, hr, rxRead, hq]
  rw [step_of_no_word hw, otherMove_of_block ht, ownStep, hr]

/-- A complete frame is classified. -/
theorem step_block_frame (hr : s'.rpoll = .frame) :
    step s = onNext (commit .rxFrame) (exec (rxRow s'.rxf.command s'.rxf.ackFlag
      (pairU16 s'.rxf.paramHi s'.rxf.paramLo) (pairU16 s'.rxf.cksumHi s'.rxf.cksumLo)) s') := by
  have hw : fetchWord s = some (.rxFrame, .rxFrame (assembledFrame s'.rxf).toBits, s') := by
    rw [fetchWord_of_block ht]; simp [blockWord, hr]
  exact step_of_fetchWord hw (decode_assembledFrame _)

/-- A poll that is over returns to its operation (44_driver.md R160). -/
theorem step_block_pollReturn (hr : s'.rpoll = .finished) : step s = .next (pollReturn s') := by
  have hw : fetchWord s = none := by rw [fetchWord_of_block ht]; simp [blockWord, hr]
  rw [step_of_no_word hw, otherMove_of_block ht, ownStep, hr]

end

/-! ### What a word of the host does -/

/-- What an accepted host instruction makes of the state `s` in which the port has accepted it. -/
inductive HostEffect (s : State) : Instr → State → Prop
  | nop : HostEffect s .nop s
  | initWithReset (a : Bool) :
    HostEffect s (.init a true) (startSend .init Config.RESET_CMD Config.RESET_ARG a (setAckMode a s))
  | initWithoutReset (a : Bool) :
    HostEffect s (.init a false)
      (finishInit true { setAckMode a s with ev := { s.ev with kind := Config.INIT_ASSUMED_KIND } })
  | send (i : Instr) (o : Owner) (c : Byte) (g : U16) (a : Bool) : HostEffect s i (startSend o c g a s)
  | poll : HostEffect s .poll (beginPoll { s with tmPhase := .poll })
  | waitev (d : Time) : HostEffect s (.waitev d) (startWait .direct d s)
  | read (i : Instr) (r : HostResult) : HostEffect s i (yieldResult r (clearAvailable s))

/-- A host operation is refused while another is in progress, and else has its effect (30_encoding.md
R69). -/
theorem whenIdle_hostEffect {i : Instr} {s : State} {f : State → State}
    (h : HostEffect { s with accepted := true } i (f { s with accepted := true })) :
    whenIdle f s = notAccepted s ∨
      s.tmPhase = .idle ∧ HostEffect { s with accepted := true } i (whenIdle f s) := by
  by_cases hp : s.tmPhase = .idle
  · exact .inr ⟨hp, by rwa [whenIdle_idle f hp]⟩
  · exact .inl (whenIdle_busy f hp)

/-- A word of the host is not accepted, or finds no operation in progress and has its effect. -/
theorem exec_host_cases {w : BitVec 64} {i : Instr} {s t : State} (hd : decode (.host w) = .ok i)
    (he : exec i s = .next t) :
    t = notAccepted s ∨ s.tmPhase = .idle ∧ HostEffect { s with accepted := true } i t := by
  rcases decode_host_cases hd with hi | ⟨a, r, rfl⟩ | ⟨c, g, a, rfl⟩ | ⟨d, rfl⟩ | ⟨c, g, rfl⟩ |
    ⟨c, g, rfl⟩
  · simp only [List.mem_cons, List.not_mem_nil, or_false] at hi
    rcases hi with rfl | rfl | rfl | rfl | rfl | rfl | rfl | rfl | rfl | rfl | rfl <;> cases he
    · exact whenIdle_hostEffect .nop
    · exact whenIdle_hostEffect .poll
    · exact whenIdle_hostEffect (.read _ _)
    · exact whenIdle_hostEffect (.read _ _)
    · exact whenIdle_hostEffect (.read _ _)
    all_goals exact .inl rfl
  · cases he
    cases r
    · exact whenIdle_hostEffect (.initWithoutReset a)
    · exact whenIdle_hostEffect (.initWithReset a)
  · cases he; exact whenIdle_hostEffect (.send _ ..)
  · cases he; exact whenIdle_hostEffect (.waitev d)
  · cases he; exact whenIdle_hostEffect (.send _ ..)
  · cases he; exact whenIdle_hostEffect (.send _ ..)

/-- A pure function of the codec writes its result register alone (40_framecodec.md). -/
theorem exec_decodeCodec (fn : CodecFn) (v : BitVec 80) (s : State) :
    ∃ r, exec (decodeCodec fn v) s = .next { s with codecResult := r } := by
  cases fn <;> exact ⟨_, rfl⟩

/-! ### One step, by the agent that moves -/

/-- What the move `m` makes of the state `s` from which it has been taken (20_memory.md R50). -/
inductive MoveStep (s : State) : Move → State → Prop
  | phase (hr : s.rpoll = .none) : MoveStep s .block (phaseStep s)
  | byte (b : Byte) (q : List Byte) (hr : s.rpoll = .draining) (hq : s.rxq = b :: q) :
    MoveStep s .block (afterByte (feedByte { s with rxq := q } b))
  | timeout (hr : s.rpoll = .draining) (hq : s.rxq = []) : MoveStep s .block (timeoutCheck s)
  | frame (u : State) (hr : s.rpoll = .frame)
    (he : exec (rxRow s.rxf.command s.rxf.ackFlag (pairU16 s.rxf.paramHi s.rxf.paramLo)
      (pairU16 s.rxf.cksumHi s.rxf.cksumLo)) s = .next u) :
    MoveStep s .block { u with rpoll := .finished }
  | pollReturn (hr : s.rpoll = .finished) : MoveStep s .block (pollReturn s)
  | host (w : BitVec 64) (i : Instr) (t : State) (hd : decode (.host w) = .ok i)
    (hp : s.tmPhase = .idle) (he : HostEffect { s with accepted := true } i t) : MoveStep s (.host w) t
  | notAccepted (w : BitVec 64) : MoveStep s (.host w) (notAccepted s)
  | codec (fn : CodecFn) (v : BitVec 80) (r : CodecResult) :
    MoveStep s (.codec fn v) { s with codecResult := r }
  | envRx (b : Byte) : MoveStep s (.envRx b) { s with rxq := s.rxq ++ [b] }
  | envTick (d : Time) : MoveStep s (.envTick d) { s with clock := s.clock + d }
  | envDrop (n : Nat) : MoveStep s (.envDrop n) { s with rxq := s.rxq.eraseIdx n }
  | reset : MoveStep s .reset (hardReset s)

/-- One step is one move of one agent, on the state without that move. -/
theorem step_moveStep {s t : State} (h : step s = .next t) :
    ∃ m r, takeMove s = (m, { s with moves := r }) ∧ MoveStep { s with moves := r } m t := by
  obtain ⟨m, r, ht⟩ := takeMove_eq s
  refine ⟨m, r, ht, ?_⟩
  generalize { s with moves := r } = s' at ht
  cases m with
  | block =>
    cases hr : s'.rpoll with
    | none => cases (step_block_phase ht hr).symm.trans h; exact .phase hr
    | draining =>
      cases hq : s'.rxq with
      | nil => cases (step_block_timeout ht hr hq).symm.trans h; exact .timeout hr hq
      | cons b q => cases (step_block_byte ht hr hq).symm.trans h; exact .byte b q hr hq
    | frame =>
      obtain ⟨u, he, rfl⟩ := onNext_eq_next.mp ((step_block_frame ht hr).symm.trans h)
      exact .frame u hr he
    | finished => cases (step_block_pollReturn ht hr).symm.trans h; exact .pollReturn hr
  | host w =>
    have hw : fetchWord s = some (.port, .host w, s') := by rw [fetchWord, ht]
    cases hd : decode (.host w) with
    | error e =>
      cases (step_of_undecodable hw hd).symm.trans h
      rw [otherMove, ht]
      exact .notAccepted w
    | ok i =>
      obtain ⟨u, he, rfl⟩ := onNext_eq_next.mp ((step_of_fetchWord hw hd).symm.trans h)
      rcases exec_host_cases hd he with hu | ⟨hp, heff⟩
      · rw [hu]; exact .notAccepted w
      · exact .host w i u hd hp heff
  | codec fn v =>
    have hw : fetchWord s = some (.codec, .codec fn v, s') := by rw [fetchWord, ht]
    obtain ⟨u, he, rfl⟩ := onNext_eq_next.mp ((step_of_fetchWord hw rfl).symm.trans h)
    obtain ⟨y, hy⟩ := exec_decodeCodec fn v s'
    cases hy.symm.trans he
    exact .codec fn v y
  | envRx b =>
    cases (step_of_no_word (by rw [fetchWord, ht])).symm.trans h
    rw [otherMove, ht]; exact .envRx b
  | envTick d =>
    cases (step_of_no_word (by rw [fetchWord, ht])).symm.trans h
    rw [otherMove, ht]; exact .envTick d
  | envDrop n =>
    cases (step_of_no_word (by rw [fetchWord, ht])).symm.trans h
    rw [otherMove, ht]; exact .envDrop n
  | reset =>
    cases (step_of_no_word (by rw [fetchWord, ht])).symm.trans h
    rw [otherMove, ht]; exact .reset

end Sys2Proof.Machine

/-! TXLOG is never read (20_memory.md R52): a step commutes with putting other bytes before those
already written. -/

namespace Sys2Proof.Machine

/-- The state in which the bytes `p` had been written before those of TXLOG. -/
def prependLog (p : List Byte) (s : State) : State := { s with txlog := p ++ s.txlog }

@[simp] theorem prependLog_tmPhase (p : List Byte) (s : State) : (prependLog p s).tmPhase = s.tmPhase := rfl
@[simp] theorem prependLog_rpoll (p : List Byte) (s : State) : (prependLog p s).rpoll = s.rpoll := rfl
@[simp] theorem prependLog_report (p : List Byte) (s : State) : (prependLog p s).report = s.report := rfl
@[simp] theorem prependLog_pending (p : List Byte) (s : State) : (prependLog p s).pending = s.pending := rfl
@[simp] theorem prependLog_ev (p : List Byte) (s : State) : (prependLog p s).ev = s.ev := rfl
@[simp] theorem prependLog_rxq (p : List Byte) (s : State) : (prependLog p s).rxq = s.rxq := rfl
@[simp] theorem prependLog_moves (p : List Byte) (s : State) : (prependLog p s).moves = s.moves := rfl
@[simp] theorem prependLog_txb (p : List Byte) (s : State) : (prependLog p s).txb = s.txb := rfl
@[simp] theorem hasElapsed_prependLog (p : List Byte) (t0 d : Time) (s : State) :
    hasElapsed t0 d (prependLog p s) = hasElapsed t0 d s := rfl

/-- The write appends behind what stands there already: the one operation that touches TXLOG. -/
theorem txWrite_prependLog (f : Frame) (p : List Byte) (s : State) :
    txWrite f (prependLog p s) = prependLog p (txWrite f s) := by
  simp [txWrite, prependLog, List.append_assoc]

/-! ### The shared operations -/

theorem startSend_prependLog (o : Owner) (c : Byte) (g : U16) (a : Bool) (p : List Byte) (s : State) :
    startSend o c g a (prependLog p s) = prependLog p (startSend o c g a s) := by
  unfold startSend
  rw [prependLog_pending]
  split <;> rfl

theorem whenIdle_prependLog {f : State → State} (p : List Byte) (s : State)
    (hf : ∀ u, f (prependLog p u) = prependLog p (f u)) :
    whenIdle f (prependLog p s) = prependLog p (whenIdle f s) := by
  unfold whenIdle
  rw [prependLog_tmPhase]
  split
  · exact hf { s with accepted := true }
  · rfl

theorem receiveFrame_prependLog (o : ClassOutcome) (c a : Byte) (q k : U16) (p : List Byte) (s : State) :
    receiveFrame o c a q k (prependLog p s) = prependLog p (receiveFrame o c a q k s) := by
  unfold receiveFrame
  split
  · cases o <;> rfl
  · rfl

theorem afterWrite_prependLog (p : List Byte) (s : State) :
    afterWrite (prependLog p s) = prependLog p (afterWrite s) := by
  unfold afterWrite
  rw [prependLog_tmPhase]
  split <;> rfl

theorem sendReturn_prependLog (o : Owner) (p : List Byte) (s : State) :
    sendReturn o (prependLog p s) = prependLog p (sendReturn o s) := by
  cases o <;> rfl

theorem waitReturn_prependLog (o : Owner) (arrived : Bool) (p : List Byte) (s : State) :
    waitReturn o arrived (prependLog p s) = prependLog p (waitReturn o arrived s) := by
  cases o
  case query => cases arrived <;> rfl
  all_goals rfl

theorem pollReturn_prependLog (p : List Byte) (s : State) :
    pollReturn (prependLog p s) = prependLog p (pollReturn s) := by
  unfold pollReturn
  rw [prependLog_tmPhase]
  cases s.tmPhase with
  | sendBlocked o c g => dsimp only; rw [prependLog_pending]; split <;> rfl
  | waitEvent o t0 d =>
    dsimp only
    rw [prependLog_ev, hasElapsed_prependLog, waitReturn_prependLog, waitReturn_prependLog]
    split_ifs <;> rfl
  | _ => rfl

theorem phaseStep_prependLog (p : List Byte) (s : State) :
    phaseStep (prependLog p s) = prependLog p (phaseStep s) := by
  unfold phaseStep
  rw [prependLog_tmPhase]
  cases s.tmPhase with
  | sendWrite o a c g =>
    dsimp only
    rw [prependLog_txb, txWrite_prependLog, afterWrite_prependLog]
  | sendRecord o c g => exact sendReturn_prependLog o p (recordPending c g s)
  | sendQuiesce o t0 =>
    dsimp only
    rw [hasElapsed_prependLog, sendReturn_prependLog]
    split <;> rfl
  | initSettle arrived t0 =>
    dsimp only
    rw [hasElapsed_prependLog]
    split <;> rfl
  | _ => rfl

theorem timeoutCheck_prependLog (p : List Byte) (s : State) :
    timeoutCheck (prependLog p s) = prependLog p (timeoutCheck s) := by
  have hdue : timeoutDue (prependLog p s) = timeoutDue s := rfl
  unfold timeoutCheck
  rw [hdue]
  split <;> rfl

theorem ownStep_prependLog (p : List Byte) (s : State) :
    ownStep (prependLog p s) = prependLog p (ownStep s) := by
  unfold ownStep
  rw [prependLog_rpoll]
  cases s.rpoll with
  | none => exact phaseStep_prependLog p s
  | draining => exact timeoutCheck_prependLog p s
  | frame => rfl
  | finished => exact pollReturn_prependLog p s

/-! ### The engine -/

theorem takeMove_prependLog (p : List Byte) (s : State) :
    takeMove (prependLog p s) = ((takeMove s).1, prependLog p (takeMove s).2) := by
  unfold takeMove
  rw [prependLog_moves]
  cases s.moves <;> rfl

theorem otherMove_prependLog (p : List Byte) (s : State) :
    otherMove (prependLog p s) = prependLog p (otherMove s) := by
  unfold otherMove
  rw [takeMove_prependLog]
  rcases takeMove s with ⟨m, s'⟩
  cases m with
  | block => exact ownStep_prependLog p s'
  | _ => rfl

theorem afterByte_prependLog (p : List Byte) (s : State) :
    afterByte (prependLog p s) = prependLog p (afterByte s) := by
  unfold afterByte
  rw [prependLog_report]
  cases s.report <;> rfl

theorem commit_prependLog (src : Source) (p : List Byte) (s : State) :
    commit src (prependLog p s) = prependLog p (commit src s) := by
  cases src with
  | rxByte => exact afterByte_prependLog p s
  | txFrame => exact afterWrite_prependLog p s
  | _ => rfl

/-- The word a step reads, with the place it stands in, does not depend on TXLOG. -/
theorem blockWord_prependLog (p : List Byte) (s : State) :
    blockWord (prependLog p s) = (blockWord s).map fun (src, w, s') => (src, w, prependLog p s') := by
  unfold blockWord
  rw [prependLog_rpoll]
  cases s.rpoll with
  | draining => unfold rxRead; rw [prependLog_rxq]; cases s.rxq <;> rfl
  | none => dsimp only; rw [prependLog_tmPhase]; cases s.tmPhase <;> rfl
  | _ => rfl

theorem fetchWord_prependLog (p : List Byte) (s : State) :
    fetchWord (prependLog p s) = (fetchWord s).map fun (src, w, s') => (src, w, prependLog p s') := by
  unfold fetchWord
  rw [takeMove_prependLog]
  rcases takeMove s with ⟨m, s'⟩
  cases m with
  | block => exact blockWord_prependLog p s'
  | _ => rfl

/-- No instruction reads TXLOG, and only TX_FRAME writes it. -/
theorem exec_prependLog (i : Instr) (p : List Byte) (s : State) :
    exec i (prependLog p s) = onNext (prependLog p) (exec i s) := by
  cases i
  case nop | poll | waitev | rdkind | rdparam | rdcmd =>
    exact congrArg Host.Outcome.next (whenIdle_prependLog p s fun _ => rfl)
  case init a r =>
    refine congrArg Host.Outcome.next (whenIdle_prependLog p s fun u => ?_)
    cases r
    · rfl
    · exact startSend_prependLog _ _ _ _ p (setAckMode a u)
  case send | query | sendm =>
    exact congrArg Host.Outcome.next (whenIdle_prependLog p s fun u => startSend_prependLog ..)
  case txFrame => exact congrArg Host.Outcome.next (txWrite_prependLog ..)
  case rxstepExpectVersion b | rxstepExpectLength b =>
    refine congrArg Host.Outcome.next ?_
    split <;> rfl
  case reservedOpA | reservedOpB | reservedOpC | reservedOpD | reservedOpE | reservedOpF | checksum
    | encode | decode | validate | rxstepIdle | rxstepExpectCommand | rxstepExpectAck
    | rxstepExpectParamHigh | rxstepExpectParamLow | rxstepExpectChecksumHigh
    | rxstepExpectChecksumLow | rxstepExpectEnd => rfl
  all_goals exact congrArg Host.Outcome.next (receiveFrame_prependLog ..)

/-- A step from the state with an earlier part of TXLOG put back is the same step with that part put
back. -/
theorem step_prependLog (p : List Byte) (s : State) :
    step (prependLog p s) = onNext (prependLog p) (step s) := by
  unfold step fetch
  rw [fetchWord_prependLog]
  rcases fetchWord s with _ | ⟨src, w, s'⟩
  · exact congrArg Host.Outcome.next (otherMove_prependLog p s)
  dsimp only [Option.map_some]
  rcases decode w with e | i
  · exact congrArg Host.Outcome.next (otherMove_prependLog p s)
  dsimp only
  rw [exec_prependLog]
  cases exec i s' with
  | next u => exact congrArg Host.Outcome.next (commit_prependLog src p u)
  | _ => rfl

/-- Settles O56: every step commutes with putting other bytes before those in TXLOG, so what a step from
an empty log writes is what it appends to any log. -/
theorem transmitLogNeverRead : Obligations.TransmitLogNeverRead := by
  intro s t l h
  have hempty (p : List Byte) :
      step { s with txlog := p } = onNext (prependLog p) (step { s with txlog := [] }) := by
    rw [← step_prependLog]; simp [prependLog]
  obtain ⟨u, hu, rfl⟩ := onNext_eq_next.mp ((hempty s.txlog).symm.trans h)
  exact ⟨u.txlog, rfl, by rw [hempty l, hu]; rfl⟩

end Sys2Proof.Machine

/-! ACK mode and the flag `available` (10_state.md R14, R21): what leaves them alone. -/

namespace Sys2Proof.Machine

/-- From `s` to `t` ACK mode is kept and `available` does not rise. -/
structure KeepsModeAndFlag (s t : State) : Prop where
  ackMode : t.ackMode = s.ackMode
  available : s.ev.available = false → t.ev.available = false

theorem startSend_keepsModeAndFlag (o : Owner) (c : Byte) (g : U16) (a : Bool) (s : State) :
    KeepsModeAndFlag s (startSend o c g a s) := by
  rcases startSend_cases o c g a s with ⟨-, -, h⟩ | ⟨-, h⟩ <;> rw [h] <;> exact ⟨rfl, id⟩

theorem finishInit_keepsModeAndFlag (arrived : Bool) (s : State) :
    KeepsModeAndFlag s (finishInit arrived s) := ⟨rfl, fun _ => rfl⟩

theorem afterWrite_keepsModeAndFlag (s : State) : KeepsModeAndFlag s (afterWrite s) := by
  rcases afterWrite_cases s with ⟨_, _, _, -, h⟩ | ⟨_, _, _, -, h⟩ | ⟨-, h⟩ <;> rw [h] <;> exact ⟨rfl, id⟩

theorem sendReturn_keepsModeAndFlag (o : Owner) (s : State) : KeepsModeAndFlag s (sendReturn o s) := by
  rcases sendReturn_cases o s with ⟨-, h⟩ | ⟨_, -, h⟩ <;> rw [h] <;> exact ⟨rfl, id⟩

theorem waitReturn_keepsModeAndFlag (o : Owner) (arrived : Bool) (s : State) :
    KeepsModeAndFlag s (waitReturn o arrived s) := by
  rcases waitReturn_cases o arrived s with ⟨-, h⟩ | ⟨-, h⟩ | ⟨-, h⟩ <;> rw [h]
  · exact ⟨rfl, id⟩
  · exact ⟨rfl, id⟩
  · rcases finishQuery_cases arrived s with ⟨-, h'⟩ | ⟨-, h'⟩ <;> rw [h']
    · exact ⟨rfl, fun _ => rfl⟩
    · exact ⟨rfl, id⟩

/-- The end of a poll stores nothing. -/
theorem pollReturn_keepsModeAndFlag (s : State) : KeepsModeAndFlag s (pollReturn s) := by
  rcases pollReturn_cases s with ⟨-, h⟩ | ⟨_, _, _, -, ⟨-, h⟩ | ⟨-, h⟩⟩ |
    ⟨_, _, _, -, ⟨-, h⟩ | ⟨-, -, h⟩ | ⟨-, -, h⟩⟩ | ⟨-, h⟩ <;> rw [h]
  case inr.inr.inl.inl | inr.inr.inl.inr.inl => exact waitReturn_keepsModeAndFlag ..
  all_goals exact ⟨rfl, id⟩

/-- An operation outside its poll stores nothing. -/
theorem phaseStep_keepsModeAndFlag (s : State) : KeepsModeAndFlag s (phaseStep s) := by
  rcases phaseStep_cases s with ⟨-, h⟩ | ⟨-, h⟩ | ⟨_, _, _, _, -, h⟩ | ⟨o, c, g, -, h⟩ |
    ⟨_, _, -, ⟨-, h⟩ | ⟨-, h⟩⟩ | ⟨_, _, -, h⟩ | ⟨_, _, -, ⟨-, h⟩ | ⟨-, h⟩⟩ <;> rw [h]
  · exact ⟨rfl, id⟩
  · exact ⟨rfl, id⟩
  · obtain ⟨hmode, hflag⟩ := afterWrite_keepsModeAndFlag (txWrite s.txb s)
    exact ⟨hmode, hflag⟩
  · obtain ⟨hmode, hflag⟩ := sendReturn_keepsModeAndFlag o (recordPending c g s)
    exact ⟨hmode, hflag⟩
  · exact sendReturn_keepsModeAndFlag ..
  · exact ⟨rfl, id⟩
  · exact ⟨rfl, id⟩
  · exact finishInit_keepsModeAndFlag ..
  · exact ⟨rfl, id⟩

/-- A host instruction raises no flag, and writes ACK mode only where it is INIT. -/
theorem HostEffect.keepsModeAndFlag {i : Instr} {s t : State} (h : HostEffect s i t) :
    KeepsModeAndFlag s t ∨ ∃ a r, i = .init a r ∧ KeepsModeAndFlag (setAckMode a s) t := by
  cases h with
  | nop => exact .inl ⟨rfl, id⟩
  | initWithReset a => exact .inr ⟨a, true, rfl, startSend_keepsModeAndFlag ..⟩
  | initWithoutReset a => exact .inr ⟨a, false, rfl, rfl, fun _ => rfl⟩
  | send o c g a => exact .inl (startSend_keepsModeAndFlag ..)
  | poll => exact .inl ⟨rfl, id⟩
  | waitev d => exact .inl ⟨rfl, id⟩
  | read r => exact .inl ⟨rfl, fun _ => rfl⟩

/-! ### What a step of a poll leaves alone -/

/-- What every step of a poll leaves alone: beside what `Stays` names, the configuration. -/
structure PollKeeps (s t : State) : Prop extends Stays s t where
  ackMode : t.ackMode = s.ackMode
  timeoutDuration : t.timeoutDuration = s.timeoutDuration

theorem receiveFrame_pollKeeps (o : ClassOutcome) (c a : Byte) (p k : U16) (s : State) :
    PollKeeps s (receiveFrame o c a p k s) := by
  refine ⟨receiveFrame_stays o c a p k s, ?_, ?_⟩ <;>
  · rcases receiveFrame_cases o c a p k s with ⟨-, h⟩ | ⟨-, h⟩
    · rcases applyOutcome_cases o c p s with ⟨_, -, h'⟩ | ⟨-, h'⟩ | ⟨-, h'⟩ | ⟨-, h'⟩ <;> rw [h, h'] <;> rfl
    · rw [h]; rfl

/-- A byte step writes the receiver's position, its registers and its result; it reports FrameReady only
where RXF completes a valid frame, with that frame's command and parameter (41_receiver.md R100). -/
theorem feedByte_cases (s : State) (b : Byte) :
    ∃ r x y, feedByte s b = { s with rxState := r, rxf := x, report := y } ∧
      ∀ c p, y = .frameReady c p →
        r = .idle ∧ validateFrame (assembledFrame x) = true ∧
          y = .frameReady x.command (pairU16 x.paramHi x.paramLo) := by
  unfold feedByte
  cases s.rxState
  case expectEnd =>
    refine ⟨_, _, _, rfl, fun c p hy => ?_⟩
    unfold endResult at hy ⊢
    split at hy
    · split at hy
      · rename_i hend hsum
        rw [if_pos hend, if_pos hsum]
        refine ⟨rfl, ?_, rfl⟩
        simpa [validateFrame, assembledFrame, Frame.cksum] using hsum
      · cases hy
    · cases hy
  case expectVersion | expectLength =>
    dsimp only [rxStepRow, exec, execRxstepExpectVersion, execRxstepExpectLength]
    split <;> exact ⟨_, _, _, rfl, by simp⟩
  all_goals exact ⟨_, _, _, rfl, by simp⟩

theorem feedByte_pollKeeps (s : State) (b : Byte) : PollKeeps s (feedByte s b) := by
  obtain ⟨r, x, y, h, -⟩ := feedByte_cases s b
  rw [h]
  exact ⟨⟨rfl, rfl, .inl rfl⟩, rfl, rfl⟩

theorem afterByte_pollKeeps (s : State) : PollKeeps s (afterByte s) := by
  rcases afterByte_cases s with ⟨_, _, -, h⟩ | ⟨e, -, h⟩ | ⟨-, h⟩ <;> rw [h]
  · exact ⟨⟨rfl, rfl, .inl rfl⟩, rfl, rfl⟩
  · exact ⟨⟨rfl, rfl, (takeFrameError_stays e none s).pending⟩, rfl, rfl⟩
  · exact ⟨⟨rfl, rfl, .inl rfl⟩, rfl, rfl⟩

theorem timeoutCheck_pollKeeps (s : State) : PollKeeps s (timeoutCheck s) := by
  refine ⟨(timeoutCheck_stays s).1, ?_, ?_⟩ <;>
    rcases timeoutCheck_cases s with ⟨-, h⟩ | ⟨-, h⟩ <;> rw [h] <;> rfl

/-- The classification of the frame in RXF leaves the same alone. -/
theorem exec_rxRow_pollKeeps {c a : Byte} {p k : U16} {s u : State}
    (h : exec (rxRow c a p k) s = .next u) : PollKeeps s u := by
  obtain ⟨o, c', h'⟩ := exec_rxRow_cases c a p k s
  cases h'.symm.trans h
  exact receiveFrame_pollKeeps ..

/-! ### The two statements -/

theorem MoveStep.available_rises {s t : State} {m : Move} (h : MoveStep s m t)
    (hs : s.ev.available = false) (ht : t.ev.available = true) :
    m = .block ∧ (s.rpoll = .draining ∨ s.rpoll = .frame) := by
  have impossible {P : Prop} (k : s.ev.available = false → t.ev.available = false) : P := by
    simp [k hs] at ht
  cases h with
  | byte b q hr hq => exact ⟨rfl, .inl hr⟩
  | timeout hr hq => exact ⟨rfl, .inl hr⟩
  | frame u hr he => exact ⟨rfl, .inr hr⟩
  | phase hr => exact impossible (phaseStep_keepsModeAndFlag s).available
  | pollReturn hr => exact impossible (pollReturn_keepsModeAndFlag s).available
  | host w i t hd hp he =>
    rcases he.keepsModeAndFlag with k | ⟨_, _, -, k⟩
    · exact impossible k.available
    · exact impossible k.available
  | reset => exact impossible fun _ => rfl
  | _ => exact impossible id

/-- Settles O27: everything but a step of the block inside a running poll keeps the flag down. -/
theorem availableRisesOnlyInPoll : Obligations.AvailableRisesOnlyInPoll := by
  intro s t h hs ht
  obtain ⟨m, r, hm, hstep⟩ := step_moveStep h
  rw [hm]
  exact hstep.available_rises hs ht

theorem MoveStep.ackMode_written {s t : State} {m : Move} (h : MoveStep s m t)
    (hne : t.ackMode ≠ s.ackMode) :
    m = .reset ∨ ∃ w a r, m = .host w ∧ decode (.host w) = .ok (.init a r) ∧ t.ackMode = a := by
  cases h with
  | byte b q hr hq =>
    have hb := feedByte_pollKeeps { s with rxq := q } b
    exact absurd ((afterByte_pollKeeps _).ackMode.trans hb.ackMode) hne
  | timeout hr hq => exact absurd (timeoutCheck_pollKeeps s).ackMode hne
  | frame u hr he => exact absurd (exec_rxRow_pollKeeps he).ackMode hne
  | phase hr => exact absurd (phaseStep_keepsModeAndFlag s).ackMode hne
  | pollReturn hr => exact absurd (pollReturn_keepsModeAndFlag s).ackMode hne
  | host w i t hd hp he =>
    rcases he.keepsModeAndFlag with k | ⟨a, r, rfl, k⟩
    · exact absurd k.ackMode hne
    · exact .inr ⟨w, a, r, rfl, hd, k.ackMode⟩
  | reset => exact .inl rfl
  | _ => exact absurd rfl hne

/-- Settles O51: only INIT among the host's words and the reset line reach the register of ACK mode. -/
theorem ackModeWrittenOnlyByInit : Obligations.AckModeWrittenOnlyByInit := by
  intro s t h hne
  obtain ⟨m, r, hm, hstep⟩ := step_moveStep h
  rw [hm]
  exact hstep.ackMode_written hne

end Sys2Proof.Machine

/-! The consistency invariant: what a state needs to meet it outside a poll, inside one and before a
write, and that every step keeps it. -/

namespace Sys2Proof.Machine

/-- The part of `Inv` that is about the pending transaction and the configured duration (10_state.md R15,
R17; 41_receiver.md R104). -/
structure PendingSound (s : State) : Prop where
  requiresAck : s.pending.valid = true → s.pending.requiresAck = true
  deadline : s.pending.valid = true → s.pending.deadline = s.timeoutDuration
  configured : s.timeoutDuration = Config.TIMEOUT_DEFAULT

theorem Inv.pendingSound {s : State} (h : Inv s) : PendingSound s :=
  ⟨h.pending_requiresAck, h.pending_deadline, h.timeout_configured⟩

theorem PendingSound.congr {s t : State} (h : PendingSound s) (hp : t.pending = s.pending)
    (hd : t.timeoutDuration = s.timeoutDuration) : PendingSound t :=
  ⟨by rw [hp]; exact h.requiresAck, by rw [hp, hd]; exact h.deadline, hd.trans h.configured⟩

theorem PendingSound.of_not_valid {s : State} (hv : s.pending.valid = false)
    (hd : s.timeoutDuration = Config.TIMEOUT_DEFAULT) : PendingSound s :=
  ⟨by simp [hv], by simp [hv], hd⟩

/-- A step of a poll keeps the pending transaction or resolves it. -/
theorem PollKeeps.pendingSound {s t : State} (k : PollKeeps s t) (h : PendingSound s) :
    PendingSound t := by
  rcases k.pending with hp | hv
  · exact h.congr hp k.timeoutDuration
  · exact .of_not_valid hv (k.timeoutDuration.trans h.configured)

/-- What SEND records is sound (43_transaction.md R145). -/
theorem recordPending_pendingSound (c : Byte) (g : U16) {s : State} (h : PendingSound s) :
    PendingSound (recordPending c g s) :=
  ⟨fun _ => rfl, fun _ => rfl, h.configured⟩

/-! ### States that meet the invariant -/

/-- Outside a poll, with no write and no record to come. -/
theorem inv_outside_poll {s : State} (h : PendingSound s) (hr : s.rpoll = .none)
    (hp : s.tmPhase.polls = false) (hw : ∀ o c g a, s.tmPhase ≠ .sendWrite o a c g)
    (hrec : ∀ o c g, s.tmPhase ≠ .sendRecord o c g) : Inv s where
  pending_requiresAck := h.requiresAck
  pending_deadline := h.deadline
  timeout_configured := h.configured
  poll_inside_operation := by simp [hr, hp]
  frame_valid hf := by simp [hr] at hf
  write_exclusive o c g hs := absurd hs (hw o c g true)
  record_exclusive o c g hs := absurd hs (hrec o c g)
  txb_encoded o a c g hs := absurd hs (hw o c g a)

/-- Inside the poll of an operation. -/
theorem inv_inside_poll {s : State} (h : PendingSound s) (hr : s.rpoll ≠ .none)
    (hp : s.tmPhase.polls = true)
    (hf : s.rpoll = .frame → s.rxState = .idle ∧ validateFrame (assembledFrame s.rxf) = true ∧
      s.report = .frameReady s.rxf.command (pairU16 s.rxf.paramHi s.rxf.paramLo)) : Inv s where
  pending_requiresAck := h.requiresAck
  pending_deadline := h.deadline
  timeout_configured := h.configured
  poll_inside_operation := by simp [hr, hp]
  frame_valid := hf
  write_exclusive o c g hs := by simp [hs, TmPhase.polls] at hp
  record_exclusive o c g hs := by simp [hs, TmPhase.polls] at hp
  txb_encoded o a c g hs := by simp [hs, TmPhase.polls] at hp

theorem inv_finish {s : State} {r : HostResult} (h : PendingSound s) : Inv (finish r s) :=
  inv_outside_poll (h.congr rfl rfl) rfl rfl (by simp) (by simp)

theorem inv_beginPoll {s : State} (h : PendingSound s) (hp : s.tmPhase.polls = true) :
    Inv (beginPoll s) :=
  inv_inside_poll (h.congr rfl rfl) (by simp) hp (by simp)

/-- With a write to come the buffer holds the encoded frame, and an acknowledged frame has the line to
itself (43_transaction.md R142, R149). -/
theorem inv_beginWrite {s : State} {o : Owner} {a : Bool} {c : Byte} {g : U16} (h : PendingSound s)
    (ha : a = false ∨ s.pending.valid = false) : Inv (beginWrite o a c g s) where
  pending_requiresAck := h.requiresAck
  pending_deadline := h.deadline
  timeout_configured := h.configured
  poll_inside_operation := by simp [TmPhase.polls]
  frame_valid hf := by simp at hf
  write_exclusive o' c' g' hs := by
    simp only [beginWrite_tmPhase, TmPhase.sendWrite.injEq] at hs
    obtain ⟨-, rfl, -, -⟩ := hs
    simpa using ha
  record_exclusive o' c' g' hs := by simp at hs
  txb_encoded o' a' c' g' hs := by
    simp only [beginWrite_tmPhase, TmPhase.sendWrite.injEq] at hs
    obtain ⟨-, rfl, rfl, rfl⟩ := hs
    rfl

/-! ### The operations keep it -/

theorem inv_startSend {s : State} {o : Owner} {c : Byte} {g : U16} {a : Bool} (h : PendingSound s) :
    Inv (startSend o c g a s) := by
  rcases startSend_cases o c g a s with ⟨-, -, he⟩ | ⟨ha, he⟩ <;> rw [he]
  · exact inv_beginPoll (h.congr rfl rfl) rfl
  · exact inv_beginWrite h ha

theorem inv_startWait {s : State} {o : Owner} {d : Time} (h : PendingSound s) :
    Inv (startWait o d s) :=
  inv_beginPoll (h.congr rfl rfl) rfl

theorem inv_sendReturn {s : State} {o : Owner} (h : PendingSound s) (hr : s.rpoll = .none) :
    Inv (sendReturn o s) := by
  rcases sendReturn_cases o s with ⟨-, he⟩ | ⟨d, -, he⟩ <;> rw [he]
  · exact inv_finish h
  · exact inv_outside_poll (h.congr rfl rfl) hr rfl (by simp) (by simp)

theorem inv_finishInit {s : State} {arrived : Bool} (h : PendingSound s) :
    Inv (finishInit arrived s) :=
  inv_finish (h.congr rfl rfl)

theorem inv_waitReturn {s : State} {o : Owner} {arrived : Bool} (h : PendingSound s) :
    Inv (waitReturn o arrived s) := by
  rcases waitReturn_cases o arrived s with ⟨-, he⟩ | ⟨-, he⟩ | ⟨-, he⟩ <;> rw [he]
  · exact inv_finish h
  · exact inv_outside_poll (h.congr rfl rfl) rfl rfl (by simp) (by simp)
  · rcases finishQuery_cases arrived s with ⟨-, he'⟩ | ⟨-, he'⟩ <;> rw [he']
    · exact inv_finish (h.congr rfl rfl)
    · exact inv_finish h

theorem inv_pollReturn {s : State} (h : PendingSound s) (hp : s.tmPhase.polls = true) :
    Inv (pollReturn s) := by
  rcases pollReturn_cases s with ⟨-, he⟩ | ⟨o, c, g, -, ⟨-, he⟩ | ⟨hv, he⟩⟩ |
    ⟨o, t0, d, -, ⟨-, he⟩ | ⟨-, -, he⟩ | ⟨-, -, he⟩⟩ | ⟨hn, -⟩
  · rw [he]; exact inv_finish h
  · rw [he]; exact inv_beginPoll h hp
  · rw [he]; exact inv_beginWrite h (.inr hv)
  · rw [he]; exact inv_waitReturn h
  · rw [he]; exact inv_waitReturn h
  · rw [he]; exact inv_beginPoll h hp
  · simp [hn] at hp

/-- After the write an acknowledged SEND is about to record with nothing pending, as it was about to write
with nothing pending (43_transaction.md R145). -/
theorem Inv.afterWrite_txWrite {s : State} (h : Inv s) (hr : s.rpoll = .none) {o : Owner} {a : Bool}
    {c : Byte} {g : U16} (hp : s.tmPhase = .sendWrite o a c g) (f : Frame) :
    Inv (afterWrite (txWrite f s)) := by
  have hs : PendingSound (txWrite f s) := h.pendingSound.congr rfl rfl
  rcases afterWrite_cases (txWrite f s) with ⟨o', c', g', hp', he⟩ | ⟨o', c', g', -, he⟩ | ⟨hne, -⟩
  · rw [he]
    exact
      { pending_requiresAck := hs.requiresAck
        pending_deadline := hs.deadline
        timeout_configured := hs.configured
        poll_inside_operation := by simp [hr, TmPhase.polls]
        frame_valid := by simp [hr]
        write_exclusive := by simp
        record_exclusive := fun _ _ _ _ => h.write_exclusive o' c' g' hp'
        txb_encoded := by simp }
  · rw [he]
    exact inv_outside_poll (hs.congr rfl rfl) hr rfl (by simp) (by simp)
  · exact absurd hp (hne o a c g)

theorem Inv.phaseStep {s : State} (h : Inv s) (hr : s.rpoll = .none) : Inv (phaseStep s) := by
  have hs := h.pendingSound
  rcases phaseStep_cases s with ⟨-, he⟩ | ⟨hp, he⟩ | ⟨o, a, c, g, hp, he⟩ | ⟨o, c, g, -, he⟩ |
    ⟨o, t0, -, ⟨-, he⟩ | ⟨-, he⟩⟩ | ⟨o, d, -, he⟩ | ⟨b, t0, -, ⟨-, he⟩ | ⟨-, he⟩⟩ <;> rw [he]
  · exact h
  · exact inv_beginPoll hs hp
  · exact h.afterWrite_txWrite hr hp _
  · exact inv_sendReturn (recordPending_pendingSound c g hs) hr
  · exact inv_sendReturn hs hr
  · exact h
  · exact inv_startWait hs
  · exact inv_finishInit hs
  · exact h

/-- A byte step goes on with the poll, ends it with an error, or completes a valid frame. -/
theorem inv_byteStep {s : State} {b : Byte} (h : PendingSound s) (hr : s.rpoll = .draining)
    (hp : s.tmPhase.polls = true) : Inv (afterByte (feedByte s b)) := by
  have hs := (feedByte_pollKeeps s b).pendingSound h
  have hs' := (afterByte_pollKeeps _).pendingSound hs
  obtain ⟨r, x, y, hf, hready⟩ := feedByte_cases s b
  rw [hf] at hs' ⊢
  rcases afterByte_cases { s with rxState := r, rxf := x, report := y } with ⟨c, p, hy, he⟩ |
    ⟨e, -, he⟩ | ⟨-, he⟩ <;> rw [he] at hs' ⊢
  · exact inv_inside_poll hs' (by simp) hp fun _ => hready c p hy
  · exact inv_inside_poll hs' (by simp) hp (by simp)
  · exact inv_inside_poll hs' (by simp [hr]) hp (by simp [hr])

theorem inv_timeoutCheck {s : State} (h : PendingSound s) (hp : s.tmPhase.polls = true) :
    Inv (timeoutCheck s) := by
  have hk := timeoutCheck_pollKeeps s
  have hr : (timeoutCheck s).rpoll = .finished := (timeoutCheck_stays s).2.2
  exact inv_inside_poll (hk.pendingSound h) (by simp [hr]) (by rw [hk.tmPhase, hp]) (by simp [hr])

/-- The effect of an accepted host instruction keeps the invariant. -/
theorem HostEffect.inv {i : Instr} {s t : State} (he : HostEffect s i t) (h : Inv s) : Inv t := by
  have hs := h.pendingSound
  cases he with
  | nop => exact h
  | initWithReset a => exact inv_startSend (hs.congr rfl rfl)
  | initWithoutReset a => exact inv_finishInit (hs.congr rfl rfl)
  | send => exact inv_startSend hs
  | poll => exact inv_beginPoll (hs.congr rfl rfl) rfl
  | waitev d => exact inv_startWait hs
  | read => exact { h with }

/-- Every move keeps the invariant. -/
theorem MoveStep.inv {s t : State} {m : Move} (hstep : MoveStep s m t) (h : Inv s) : Inv t := by
  have hs := h.pendingSound
  have hpolls (hr : s.rpoll ≠ .none) : s.tmPhase.polls = true := h.poll_inside_operation.mp hr
  cases hstep with
  | phase hr => exact h.phaseStep hr
  | byte b q hr hq => exact inv_byteStep (hs.congr rfl rfl) hr (hpolls (by simp [hr]))
  | timeout hr hq => exact inv_timeoutCheck hs (hpolls (by simp [hr]))
  | frame u hr he =>
    have k := exec_rxRow_pollKeeps he
    have hp : u.tmPhase.polls = true := by rw [k.tmPhase]; exact hpolls (by simp [hr])
    exact inv_inside_poll ((k.pendingSound hs).congr rfl rfl) (by simp) hp (by simp)
  | pollReturn hr => exact inv_pollReturn hs (hpolls (by simp [hr]))
  | host w i t hd hp he => exact he.inv { h with }
  | reset => exact inv_outside_poll (.of_not_valid rfl rfl) rfl rfl (by simp) (by simp)
  | _ => exact { h with }

/-- Settles O60: every move of every agent keeps the invariant, and a step is a move on the state without
it. -/
theorem stepKeepsConsistency : Obligations.StepKeepsConsistency := by
  intro s t h hst
  obtain ⟨m, r, -, hstep⟩ := step_moveStep hst
  exact hstep.inv { h with }

/-! ### The state after power-up -/

theorem timeoutDefault_pos : 0 < Config.TIMEOUT_DEFAULT.toNat := by
  have := Config.timeoutDefaultLessOne.isLt
  simp only [Config.TIMEOUT_DEFAULT, BitVec.toNat_ofNat]
  omega

/-- Settles O57: the fields by definition, and TIMEOUT_DEFAULT by `timeoutDefault_pos`. -/
theorem resetStateValues : Obligations.ResetStateValues :=
  ⟨rfl, rfl, rfl, rfl, rfl, timeoutDefault_pos, rfl⟩

/-- Settles O59: after power-up nothing is pending and no operation is in progress. -/
theorem resetMeetsConsistency : Obligations.ResetMeetsConsistency :=
  inv_outside_poll (.of_not_valid rfl rfl) rfl rfl nofun nofun

/-! ### Words of the spec -/

/-- Settles O2: each clause is the decoder run on one word. -/
theorem specWordsDecode : Obligations.SpecWordsDecode :=
  ⟨by decide, by decide, by decide, by decide, by decide, by decide, by decide, by decide, by decide⟩

end Sys2Proof.Machine

/-! The environment (20_memory.md): a step runs the word it reads, the environment's own moves, and who
changes RXQ. -/

namespace Sys2Proof.Machine

/-! ### The word read and the environment's moves -/

/-- Settles O5: `step_of_fetchWord`. -/
theorem stepRunsDecodedInstruction : Obligations.StepRunsDecodedInstruction :=
  fun _ _ _ _ _ hw hd => step_of_fetchWord hw hd

theorem takeMove_of_moves {s : State} {m : Move} {r : List Move} (hm : s.moves = m :: r) :
    takeMove s = (m, { s with moves := r }) := by
  rw [takeMove, hm]

/-- A byte that arrives joins the tail of RXQ, whatever the block is doing. -/
theorem step_envRx {s s' : State} {b : Byte} (ht : takeMove s = (.envRx b, s')) :
    step s = .next { s' with rxq := s'.rxq ++ [b] } := by
  have hw : fetchWord s = none := by rw [fetchWord, ht]
  rw [step_of_no_word hw, otherMove, ht]

/-- A tick moves the clock, whatever the block is doing. -/
theorem step_envTick {s s' : State} {d : Time} (ht : takeMove s = (.envTick d, s')) :
    step s = .next { s' with clock := s'.clock + d } := by
  have hw : fetchWord s = none := by rw [fetchWord, ht]
  rw [step_of_no_word hw, otherMove, ht]

/-- Settles O55: `step_envRx` and `step_envTick` on the move at the head of the moves to come. -/
theorem environmentMoves : Obligations.EnvironmentMoves :=
  fun _ _ => ⟨fun _ hm => step_envRx (takeMove_of_moves hm), fun _ hm => step_envTick (takeMove_of_moves hm)⟩

/-! ### The operations leave RXQ alone -/

@[simp] theorem startSend_rxq (o : Owner) (c : Byte) (g : U16) (a : Bool) (s : State) :
    (startSend o c g a s).rxq = s.rxq := by
  rcases startSend_cases o c g a s with ⟨-, -, h⟩ | ⟨-, h⟩ <;> simp [h]

@[simp] theorem finishInit_rxq (arrived : Bool) (s : State) : (finishInit arrived s).rxq = s.rxq := rfl

@[simp] theorem afterWrite_rxq (s : State) : (afterWrite s).rxq = s.rxq := by
  rcases afterWrite_cases s with ⟨_, _, _, -, h⟩ | ⟨_, _, _, -, h⟩ | ⟨-, h⟩ <;> rw [h]

@[simp] theorem sendReturn_rxq (o : Owner) (s : State) : (sendReturn o s).rxq = s.rxq := by
  rcases sendReturn_cases o s with ⟨-, h⟩ | ⟨_, -, h⟩ <;> simp [h]

@[simp] theorem finishQuery_rxq (arrived : Bool) (s : State) : (finishQuery arrived s).rxq = s.rxq := by
  rcases finishQuery_cases arrived s with ⟨-, h⟩ | ⟨-, h⟩ <;> simp [h]

@[simp] theorem waitReturn_rxq (o : Owner) (arrived : Bool) (s : State) :
    (waitReturn o arrived s).rxq = s.rxq := by
  rcases waitReturn_cases o arrived s with ⟨-, h⟩ | ⟨-, h⟩ | ⟨-, h⟩ <;> simp [h]

theorem pollReturn_rxq (s : State) : (pollReturn s).rxq = s.rxq := by
  rcases pollReturn_cases s with ⟨-, h⟩ | ⟨_, _, _, -, ⟨-, h⟩ | ⟨-, h⟩⟩ |
    ⟨_, _, _, -, ⟨-, h⟩ | ⟨-, -, h⟩ | ⟨-, -, h⟩⟩ | ⟨-, h⟩ <;> simp [h]

theorem phaseStep_rxq (s : State) : (phaseStep s).rxq = s.rxq := by
  rcases phaseStep_cases s with ⟨-, h⟩ | ⟨-, h⟩ | ⟨_, _, _, _, -, h⟩ | ⟨_, _, _, -, h⟩ |
    ⟨_, _, -, ⟨-, h⟩ | ⟨-, h⟩⟩ | ⟨_, _, -, h⟩ | ⟨_, _, -, ⟨-, h⟩ | ⟨-, h⟩⟩ <;> simp [h]

theorem HostEffect.rxq_eq {i : Instr} {s t : State} (h : HostEffect s i t) : t.rxq = s.rxq := by
  cases h with
  | initWithReset | send => exact startSend_rxq ..
  | _ => rfl

/-! ### So do the steps of a poll, the head of RXQ once taken -/

theorem feedByte_rxq (s : State) (b : Byte) : (feedByte s b).rxq = s.rxq := by
  obtain ⟨_, _, _, h, -⟩ := feedByte_cases s b
  rw [h]

theorem afterByte_rxq (s : State) : (afterByte s).rxq = s.rxq := by
  rcases afterByte_cases s with ⟨_, _, -, h⟩ | ⟨_, -, h⟩ | ⟨-, h⟩ <;> simp [h]

theorem timeoutCheck_rxq (s : State) : (timeoutCheck s).rxq = s.rxq := (timeoutCheck_stays s).2.1

theorem exec_rxRow_rxq {c a : Byte} {p k : U16} {s u : State}
    (h : exec (rxRow c a p k) s = .next u) : u.rxq = s.rxq := by
  obtain ⟨o, c', h'⟩ := exec_rxRow_cases c a p k s
  cases h'.symm.trans h
  exact receiveFrame_rxq ..

/-! ### Who changes RXQ -/

/-- What a move makes of RXQ: the poll takes the head, the peripheral appends, the transport loses a byte,
and every other move leaves it alone. -/
theorem MoveStep.rxq_cases {s t : State} {m : Move} (h : MoveStep s m t) :
    t.rxq = s.rxq ∨
    (m = .block ∧ s.rpoll = .draining ∧ ∃ b, s.rxq = b :: t.rxq) ∨
    (∃ b, m = .envRx b ∧ t.rxq = s.rxq ++ [b]) ∨
    (∃ n, m = .envDrop n ∧ t.rxq = s.rxq.eraseIdx n) := by
  cases h with
  | byte b q hr hq =>
    have hrest : (afterByte (feedByte { s with rxq := q } b)).rxq = q :=
      (afterByte_rxq _).trans (feedByte_rxq ..)
    exact .inr (.inl ⟨rfl, hr, b, by rw [hrest, hq]⟩)
  | envRx b => exact .inr (.inr (.inl ⟨b, rfl, rfl⟩))
  | envDrop n => exact .inr (.inr (.inr ⟨n, rfl, rfl⟩))
  | phase => exact .inl (phaseStep_rxq s)
  | timeout => exact .inl (timeoutCheck_rxq s)
  | frame u hr he =>
    have hu : u.rxq = s.rxq := exec_rxRow_rxq he
    exact .inl hu
  | pollReturn => exact .inl (pollReturn_rxq s)
  | host w i t hd hp he => exact .inl he.rxq_eq
  | notAccepted | codec | envTick | reset => exact .inl rfl

/-- Settles O28: `MoveStep.rxq_cases` for the move taken; taking it leaves RXQ and the poll alone. -/
theorem queueConsumedFromItsHead : Obligations.QueueConsumedFromItsHead := by
  intro s t h
  obtain ⟨m, r, hm, hstep⟩ := step_moveStep h
  rw [hm]
  exact hstep.rxq_cases

end Sys2Proof.Machine

/-! The encoding (30_encoding.md): the fields of a host word, the rows of the received frames, the round
trip of decoder and encoder, and the words the port does not accept. -/

namespace Sys2Proof

/-! ### Host words -/

/-- Settles O4: each field is read at its place in R69, and the decoder's tests are then those of the
statement, in the same order. -/
theorem hostWordFieldsDecode : Obligations.HostWordFieldsDecode := by
  intro op a r z c g d
  generalize hw : op ++ BitVec.ofBool a ++ BitVec.ofBool r ++ z ++ c ++ g ++ d = w
  have hop : w.extractLsb' 60 4 = op := by
    simp (disch := decide) only [← hw, BitVec.extractLsb'_append_eq_of_le]
    exact BitVec.extractLsb'_eq_self
  have ha : w.getLsbD 59 = a := by
    simp only [← hw, BitVec.getLsbD_append, BitVec.getLsbD_ofBool]
    rfl
  have hr : w.getLsbD 58 = r := by
    simp only [← hw, BitVec.getLsbD_append, BitVec.getLsbD_ofBool]
    rfl
  have hz : w.extractLsb' 56 2 = z := by
    simp (disch := decide) only [← hw, BitVec.extractLsb'_append_eq_of_le]
    exact BitVec.extractLsb'_append_eq_right
  have hc : w.extractLsb' 48 8 = c := by
    simp (disch := decide) only [← hw, BitVec.extractLsb'_append_eq_of_le]
    exact BitVec.extractLsb'_append_eq_right
  have hg : w.extractLsb' 32 16 = g := by
    simp (disch := decide) only [← hw, BitVec.extractLsb'_append_eq_of_le]
    exact BitVec.extractLsb'_append_eq_right
  have hd : w.extractLsb' 0 32 = d := by rw [← hw, BitVec.extractLsb'_append_eq_right]
  simp only [decode, decodeHost, hop, ha, hr, hz, hc, hg, hd]

/-! ### Rows of the received frames -/

/-- `i` is a row of the frame with these variable fields: its operands lie in its pattern and its word is
that frame (30_encoding.md R61, R65). -/
def IsRowOf (c a : Byte) (p k : U16) (i : Instr) : Prop := WellFormed i ∧ encode i = rxWord c a p k

/-- The three rows told apart by parameter bits 0 and 1, bit 0 tested first (42_classifier.md R133). -/
theorem firstBitRow_isRowOf {c a : Byte} {p k : U16} {x y z : Instr} (hx : x.wf = p.getLsbD 0)
    (hy : y.wf = (!p.getLsbD 0 && p.getLsbD 1)) (hz : z.wf = (!p.getLsbD 0 && !p.getLsbD 1))
    (ex : encode x = rxWord c a p k) (ey : encode y = rxWord c a p k) (ez : encode z = rxWord c a p k) :
    IsRowOf c a p k (if p.getLsbD 0 then x else if p.getLsbD 1 then y else z) := by
  split_ifs with h0 h1
  · exact ⟨hx.trans h0, ex⟩
  · exact ⟨by simp only [WellFormed, hy, h0, h1]; rfl, ey⟩
  · exact ⟨by simp only [WellFormed, hz, h0, h1]; rfl, ez⟩

theorem rx3aRow_isRowOf (a : Byte) (p k : U16) : IsRowOf 0x3A a p k (rx3aRow a p k) :=
  firstBitRow_isRowOf rfl rfl rfl rfl rfl rfl

theorem rx3bRow_isRowOf (a : Byte) (p k : U16) : IsRowOf 0x3B a p k (rx3bRow a p k) :=
  firstBitRow_isRowOf rfl rfl rfl rfl rfl rfl

theorem rx3fRow_isRowOf (a : Byte) (p k : U16) : IsRowOf 0x3F a p k (rx3fRow a p k) :=
  firstBitRow_isRowOf rfl rfl rfl rfl rfl rfl

theorem rxFeedbackLowRow_isRowOf {c a : Byte} {p k : U16} {i : Instr}
    (h : rxFeedbackLowRow c a p k = some i) : IsRowOf c a p k i := by
  unfold rxFeedbackLowRow at h
  repeat' split at h
  all_goals cases h <;> subst_vars <;> exact ⟨rfl, rfl⟩

theorem rxFeedbackHighRow_isRowOf {c a : Byte} {p k : U16} {i : Instr}
    (h : rxFeedbackHighRow c a p k = some i) : IsRowOf c a p k i := by
  unfold rxFeedbackHighRow at h
  repeat' split at h
  all_goals cases h <;> subst_vars <;> exact ⟨rfl, rfl⟩

/-- A command is unlisted (42_classifier.md R132): it lies outside 0x3A to 0x4F, or is 0x4A. -/
def Unlisted (c : Byte) : Prop := c.toNat < 0x3A ∨ c = 0x4A ∨ 0x4F < c.toNat

theorem rxUnlistedRow_isRowOf {c : Byte} (hc : Unlisted c) (a : Byte) (p k : U16) :
    IsRowOf c a p k (rxUnlistedRow c a p k) := by
  have above (h39 : ¬ c.toNat ≤ 0x39) (h4a : ¬ c = 0x4A) : 0x50 ≤ c.toNat := by
    unfold Unlisted at hc
    bv_omega
  unfold rxUnlistedRow
  split_ifs with h1f h2f h37 h39 h4a h5f h7f
  · exact ⟨decide_eq_true h1f, rfl⟩
  · exact ⟨decide_eq_true ⟨by omega, h2f⟩, rfl⟩
  · exact ⟨decide_eq_true ⟨by omega, h37⟩, rfl⟩
  · exact ⟨decide_eq_true ⟨by omega, h39⟩, rfl⟩
  · subst h4a; exact ⟨rfl, rfl⟩
  · exact ⟨decide_eq_true ⟨above h39 h4a, h5f⟩, rfl⟩
  · exact ⟨decide_eq_true ⟨by omega, h7f⟩, rfl⟩
  · exact ⟨decide_eq_true (by omega), rfl⟩

/-- From 0x50 on the range tests below 0x50 fail. -/
theorem rxUnlistedRow_high {c : Byte} (hc : 0x50 ≤ c.toNat) (a : Byte) (p k : U16) :
    rxUnlistedRow c a p k =
      if c.toNat ≤ 0x5F then .rxUnlisted505f c a p k
      else if c.toNat ≤ 0x7F then .rxUnlisted607f c a p k else .rxUnlisted80ff c a p k := by
  have h4a : c ≠ 0x4A := by bv_omega
  rw [rxUnlistedRow, if_neg (by omega), if_neg (by omega), if_neg (by omega), if_neg (by omega), if_neg h4a]

/-- No listed command is unlisted: each test against one fails. -/
theorem rxRow_of_unlisted {c : Byte} (hc : Unlisted c) (a : Byte) (p k : U16) :
    rxRow c a p k = rxUnlistedRow c a p k := by
  have listed_ne (b : Byte) (hb : ¬ Unlisted b) : c ≠ b := fun h => hb (h ▸ hc)
  simp (disch := simp [Unlisted]) [rxRow, rxFeedbackLowRow, rxFeedbackHighRow, listed_ne]

theorem ite_some_eq_none_iff {P : Prop} [Decidable P] {i : Instr} {o : Option Instr} :
    (if P then some i else o) = none ↔ ¬ P ∧ o = none := by
  split_ifs with h <;> simp [h]

/-- A command that fails every test against a listed one is unlisted. -/
theorem unlisted_of_not_listed {c a : Byte} {p k : U16} (h3a : c ≠ 0x3A) (h3b : c ≠ 0x3B)
    (h3d : c ≠ 0x3D) (h3f : c ≠ 0x3F) (h40 : c ≠ 0x40) (h41 : c ≠ 0x41)
    (hlow : rxFeedbackLowRow c a p k = none) (hhigh : rxFeedbackHighRow c a p k = none) : Unlisted c := by
  simp only [rxFeedbackLowRow, ite_some_eq_none_iff] at hlow
  simp only [rxFeedbackHighRow, ite_some_eq_none_iff] at hhigh
  unfold Unlisted
  bv_omega

/-- The row chosen for a frame is a row of that frame. -/
theorem rxRow_isRowOf (c a : Byte) (p k : U16) : IsRowOf c a p k (rxRow c a p k) := by
  unfold rxRow
  split_ifs with h3a h3b h3d h3f h40 h41
  · exact h3a ▸ rx3aRow_isRowOf a p k
  · exact h3b ▸ rx3bRow_isRowOf a p k
  · exact h3d ▸ ⟨rfl, rfl⟩
  · exact h3f ▸ rx3fRow_isRowOf a p k
  · exact h40 ▸ ⟨rfl, rfl⟩
  · exact h41 ▸ ⟨rfl, rfl⟩
  cases hlow : rxFeedbackLowRow c a p k with
  | some i => exact rxFeedbackLowRow_isRowOf hlow
  | none =>
    cases hhigh : rxFeedbackHighRow c a p k with
    | some i => exact rxFeedbackHighRow_isRowOf hhigh
    | none =>
      exact rxUnlistedRow_isRowOf (unlisted_of_not_listed h3a h3b h3d h3f h40 h41 hlow hhigh) a p k

/-- Settles O3: ten bytes with the constants are the frame of their four variable fields, whose row is
`rxRow`. -/
theorem everyFrameHasItsRow : Obligations.EveryFrameHasItsRow := by
  intro v hv
  have hword : .rxFrame v = rxWord _ _ _ _ :=
    congrArg Code.rxFrame ((Frame.toBits_ofBits v).symm.trans
      (congrArg Frame.toBits (eq_frameOf_of_hasConstants hv)))
  obtain ⟨hwf, henc⟩ := rxRow_isRowOf (Frame.ofBits v).command (Frame.ofBits v).ackFlag
    (Frame.ofBits v).parameter (Frame.ofBits v).cksum
  rw [hword]
  exact ⟨_, decode_rxWord .., hwf, henc⟩

/-! ### The round trip -/

/-- A received frame's row that is the one chosen for its frame is given back. -/
theorem decode_encode_of_rxRow {c a : Byte} {p k : U16} {i : Instr} (he : encode i = rxWord c a p k)
    (hr : rxRow c a p k = i) : decode (encode i) = .ok i := by
  rw [he, decode_rxWord, hr]

theorem decode_encode_of_rxUnlistedRow {c a : Byte} {p k : U16} {i : Instr} (hc : Unlisted c)
    (he : encode i = rxWord c a p k) (hr : rxUnlistedRow c a p k = i) : decode (encode i) = .ok i :=
  decode_encode_of_rxRow he ((rxRow_of_unlisted hc a p k).trans hr)

theorem rxRow_3a (a : Byte) (p k : U16) : rxRow 0x3A a p k = rx3aRow a p k := rfl
theorem rxRow_3b (a : Byte) (p k : U16) : rxRow 0x3B a p k = rx3bRow a p k := rfl
theorem rxRow_3f (a : Byte) (p k : U16) : rxRow 0x3F a p k = rx3fRow a p k := rfl

theorem firstBit_one {p : U16} {x y z : Instr} (h : (!p.getLsbD 0 && p.getLsbD 1) = true) :
    (if p.getLsbD 0 then x else if p.getLsbD 1 then y else z) = y := by
  obtain ⟨h0, h1⟩ := Bool.and_eq_true_iff.mp h
  rw [Bool.not_eq_true'] at h0
  rw [h0, h1, if_neg Bool.false_ne_true, if_pos rfl]

theorem firstBit_none {p : U16} {x y z : Instr} (h : (!p.getLsbD 0 && !p.getLsbD 1) = true) :
    (if p.getLsbD 0 then x else if p.getLsbD 1 then y else z) = z := by
  obtain ⟨h0, h1⟩ := Bool.and_eq_true_iff.mp h
  rw [Bool.not_eq_true'] at h0 h1
  rw [h0, h1, if_neg Bool.false_ne_true, if_neg Bool.false_ne_true]

/-- Settles O1, by the format of the row: host words by their fields (`hostWordFieldsDecode`), received
frames by the row chosen for them (`rxRow`), the other frames and the byte steps by their bit layouts. -/
theorem decodeEncodeAgree : Obligations.DecodeEncodeAgree := by
  intro i h
  cases i with
  | nop | poll | rdkind | rdparam | rdcmd | init | send | waitev | query | sendm | reservedOpA
  | reservedOpB | reservedOpC | reservedOpD | reservedOpE | reservedOpF =>
    exact hostWordFieldsDecode ..
  | checksum | decode | validate => simp only [encode, decode, decodeCodec, Frame.ofBits_toBits]
  | encode c a g =>
    simp only [encode, decode, decodeCodec, Frame.ofBits_toBits, encodeFrame, frameOf_parameter]
    rfl
  | rx3aUsbinserted | rx3bUsbremoved | rx3fUsbonline => exact decode_encode_of_rxRow rfl (if_pos h)
  | rx3aCardinserted | rx3bCardremoved | rx3fCardonline =>
    refine decode_encode_of_rxRow rfl ?_
    simp only [rxRow_3a, rxRow_3b, rxRow_3f, rx3aRow, rx3bRow, rx3fRow, firstBit_one h]
  | rx3aNomatch | rx3bNomatch | rx3fNomatch =>
    refine decode_encode_of_rxRow rfl ?_
    simp only [rxRow_3a, rxRow_3b, rxRow_3f, rx3aRow, rx3bRow, rx3fRow, firstBit_none h]
  | rx3cFeedback | rx3dPlayfinished | rx3eFeedback | rx40Error | rx41Ack | rx42Feedback | rx43Feedback
  | rx44Feedback | rx45Feedback | rx46Feedback | rx47Feedback | rx48Feedback | rx49Feedback
  | rx4bFeedback | rx4cFeedback | rx4dFeedback | rx4eFeedback | rx4fFeedback | rxUnlisted4a =>
    exact decode_encode_of_rxRow rfl rfl
  | rxUnlisted001f c a p k =>
    have hc : c.toNat ≤ 0x1F := of_decide_eq_true h
    exact decode_encode_of_rxUnlistedRow (.inl (by omega)) rfl (if_pos hc)
  | rxUnlisted202f c a p k =>
    obtain ⟨hlo, hhi⟩ : 0x20 ≤ c.toNat ∧ c.toNat ≤ 0x2F := of_decide_eq_true h
    refine decode_encode_of_rxUnlistedRow (.inl (by omega)) rfl ?_
    rw [rxUnlistedRow, if_neg (by omega), if_pos hhi]
  | rxUnlisted3037 c a p k =>
    obtain ⟨hlo, hhi⟩ : 0x30 ≤ c.toNat ∧ c.toNat ≤ 0x37 := of_decide_eq_true h
    refine decode_encode_of_rxUnlistedRow (.inl (by omega)) rfl ?_
    rw [rxUnlistedRow, if_neg (by omega), if_neg (by omega), if_pos hhi]
  | rxUnlisted3839 c a p k =>
    obtain ⟨hlo, hhi⟩ : 0x38 ≤ c.toNat ∧ c.toNat ≤ 0x39 := of_decide_eq_true h
    refine decode_encode_of_rxUnlistedRow (.inl (by omega)) rfl ?_
    rw [rxUnlistedRow, if_neg (by omega), if_neg (by omega), if_neg (by omega), if_pos hhi]
  | rxUnlisted505f c a p k =>
    obtain ⟨hlo, hhi⟩ : 0x50 ≤ c.toNat ∧ c.toNat ≤ 0x5F := of_decide_eq_true h
    refine decode_encode_of_rxUnlistedRow (.inr (.inr hlo)) rfl ?_
    rw [rxUnlistedRow_high hlo, if_pos hhi]
  | rxUnlisted607f c a p k =>
    obtain ⟨hlo, hhi⟩ : 0x60 ≤ c.toNat ∧ c.toNat ≤ 0x7F := of_decide_eq_true h
    refine decode_encode_of_rxUnlistedRow (.inr (.inr (by omega))) rfl ?_
    rw [rxUnlistedRow_high (by omega), if_neg (by omega), if_pos hhi]
  | rxUnlisted80ff c a p k =>
    have hc : 0x80 ≤ c.toNat := of_decide_eq_true h
    refine decode_encode_of_rxUnlistedRow (.inr (.inr (by omega))) rfl ?_
    rw [rxUnlistedRow_high (by omega), if_neg (by omega), if_neg (by omega)]
  | txFrame c a g => exact decode_txWord c a g
  | rxstepIdle | rxstepExpectVersion | rxstepExpectLength | rxstepExpectCommand | rxstepExpectAck
  | rxstepExpectParamHigh | rxstepExpectParamLow | rxstepExpectChecksumHigh | rxstepExpectChecksumLow
  | rxstepExpectEnd => exact decode_rxByteWord ..

end Sys2Proof

namespace Sys2Proof.Machine

/-! ### The port -/

/-- Every step with a move to come is that move made on the state without it. -/
theorem step_of_moves {s : State} {m : Move} {r : List Move} (hm : s.moves = m :: r) :
    step s = .next (makeMove m { s with moves := r }) := by
  have hs : { s with moves := m :: r } = s := by rw [← hm]
  exact (congrArg step hs).symm.trans (step_makeMove m { s with moves := r })

/-- A word that does not decode is not accepted. -/
theorem step_host_undecodable {s s' : State} {w : BitVec 64} {e : DecodeError}
    (ht : takeMove s = (.host w, s')) (hd : decode (.host w) = .error e) :
    step s = .next (notAccepted s') := by
  have hw : fetchWord s = some (.port, .host w, s') := by rw [fetchWord, ht]
  rw [step_of_undecodable hw hd, otherMove, ht]

/-- Settles O53: NOP finds the port idle, the reserved codes are refused by their meanings, and a word
that does not decode by `step_host_undecodable`. -/
theorem nopAndRefusedCodes : Obligations.NopAndRefusedCodes :=
  ⟨fun _ hp => congrArg Host.Outcome.next (whenIdle_idle id hp),
    fun _ => ⟨rfl, rfl, rfl, rfl, rfl, rfl⟩,
    fun _ _ _ _ hm hd => step_host_undecodable (takeMove_of_moves hm) hd⟩

/-- A word presented while an operation is in progress is not accepted. -/
theorem MoveStep.notAccepted_of_busy {s t : State} {w : BitVec 64} (h : MoveStep s (.host w) t)
    (hp : s.tmPhase ≠ .idle) : t = Machine.notAccepted s := by
  cases h with
  | host w i t hd hidle he => exact absurd hidle hp
  | notAccepted => rfl

/-- Settles O52: the step is a move of the host, which finds the port busy. -/
theorem busyAcceptsNothing : Obligations.BusyAcceptsNothing := by
  intro s w r hm hp
  have hst := step_of_moves hm
  obtain ⟨m, r', ht, hstep⟩ := step_moveStep hst
  cases (takeMove_of_moves hm).symm.trans ht
  rw [hst, hstep.notAccepted_of_busy hp]
  rfl

end Sys2Proof.Machine

/-! The FrameCodec (40_framecodec.md): the checksum as arithmetic on natural numbers, VALIDATE as a sum that
cancels, the errors it detects, and the ten bytes of which the receiver reports FrameReady. -/

namespace Sys2Proof

/-! ### The checksum -/

/-- The sum of six bytes, not wrapped: what CHECKSUM negates (40_framecodec.md R80). -/
def byteSum (b1 b2 b3 b4 b5 b6 : Byte) : Nat :=
  b1.toNat + b2.toNat + b3.toNat + b4.toNat + b5.toNat + b6.toNat

theorem checksumOf_toNat (b1 b2 b3 b4 b5 b6 : Byte) :
    (checksumOf b1 b2 b3 b4 b5 b6).toNat = (65536 - byteSum b1 b2 b3 b4 b5 b6) % 65536 := by
  unfold checksumOf zext16 byteSum
  bv_omega

/-- The checksum is the one value that brings the sum of the six bytes to 0 modulo 2^16. -/
theorem eq_checksumOf_iff {k : U16} {b1 b2 b3 b4 b5 b6 : Byte} :
    k = checksumOf b1 b2 b3 b4 b5 b6 ↔ (byteSum b1 b2 b3 b4 b5 b6 + k.toNat) % 65536 = 0 := by
  have hsum : byteSum b1 b2 b3 b4 b5 b6 < 65536 := by unfold byteSum; omega
  rw [← BitVec.toNat_inj, checksumOf_toNat]
  omega

/-- Settles O8: the value and the sum it cancels are `checksumOf_toNat` and `eq_checksumOf_iff`. -/
theorem checksumNegatesSum : Obligations.ChecksumNegatesSum :=
  fun b1 b2 b3 b4 b5 b6 _ =>
    ⟨checksumOf b1 b2 b3 b4 b5 b6, rfl, checksumOf_toNat .., eq_checksumOf_iff.mp rfl⟩

/-! ### The 16-bit fields -/

theorem shiftLeft_or_eq_pairU16 (h l : Byte) :
    (h.setWidth 16 <<< 8) ||| l.setWidth 16 = pairU16 h l :=
  BitVec.setWidth_append_eq_shiftLeft_setWidth_or.symm.trans (BitVec.setWidth_eq _)

theorem pairU16_toNat (h l : Byte) : (pairU16 h l).toNat = 256 * h.toNat + l.toNat := by
  rw [pairU16, BitVec.toNat_append, ← Nat.shiftLeft_add_eq_or_of_lt l.isLt, Nat.shiftLeft_eq]
  omega

/-- Settles O10: the parameter field is the pair of its two bytes. -/
theorem decodeReadsFields : Obligations.DecodeReadsFields := by
  intro f s
  rw [shiftLeft_or_eq_pairU16]
  rfl

/-- Settles O9: the ten bytes are those of `encodeFrame`, field by field. -/
theorem encodeBuildsFrame : Obligations.EncodeBuildsFrame :=
  fun _ _ _ _ => rfl

/-! ### VALIDATE -/

theorem validateFrame_iff {f : Frame} :
    validateFrame f = true ↔
      f.header = Config.HDR ∧ f.version = Config.VER ∧ f.length = Config.LEN ∧ f.endMark = Config.END ∧
        f.cksum = checksumOf f.version f.length f.command f.ackFlag f.paramHi f.paramLo := by
  simp only [validateFrame, Bool.and_eq_true, beq_iff_eq, and_assoc]

/-- The checksum field holds exactly when it brings the sum of bytes 1 to 6 to 0 modulo 2^16. -/
theorem cksum_eq_checksumOf_iff {f : Frame} :
    f.cksum = checksumOf f.version f.length f.command f.ackFlag f.paramHi f.paramLo ↔
      (byteSum f.version f.length f.command f.ackFlag f.paramHi f.paramLo +
        (256 * f.cksumHi.toNat + f.cksumLo.toNat)) % 65536 = 0 := by
  rw [eq_checksumOf_iff, Frame.cksum, pairU16_toNat]

/-- Settles O11: the two forms of the test differ in their last conjunct only, by
`cksum_eq_checksumOf_iff`. -/
theorem validateTestsFrame : Obligations.ValidateTestsFrame := by
  intro f s
  refine ⟨validateFrame f, rfl, ?_, ?_⟩
  · rw [shiftLeft_or_eq_pairU16]
    exact validateFrame_iff
  · rw [validateFrame_iff, cksum_eq_checksumOf_iff]
    rfl

theorem validateFrame_encodeFrame (c a : Byte) (g : U16) : validateFrame (encodeFrame c a g) = true :=
  validateFrame_iff.mpr ⟨rfl, rfl, rfl, rfl, frameOf_cksum ..⟩

theorem decodeFrame_encodeFrame (c a : Byte) (g : U16) : decodeFrame (encodeFrame c a g) = (c, g) :=
  congrArg (Prod.mk c) (frameOf_parameter ..)

/-- Settles O12, from `decodeFrame_encodeFrame` and `validateFrame_encodeFrame`. -/
theorem codecRoundTrip : Obligations.CodecRoundTrip := by
  intro c a g s
  refine ⟨?_, ?_⟩
  · rw [Machine.exec, Machine.execDecode, decodeFrame_encodeFrame]
  · rw [Machine.exec, Machine.execValidate, validateFrame_encodeFrame]

/-- What a valid frame says of its six variable bytes: with the version and length bytes, 0x105 together,
they cancel. -/
theorem variable_bytes_cancel {f : Frame} (h : validateFrame f = true) :
    (0x105 + f.command.toNat + f.ackFlag.toNat + f.paramHi.toNat + f.paramLo.toNat +
      256 * f.cksumHi.toNat + f.cksumLo.toNat) % 65536 = 0 := by
  obtain ⟨-, hver, hlen, -, hsum⟩ := validateFrame_iff.mp h
  have hcancel := cksum_eq_checksumOf_iff.mp hsum
  rw [hver, hlen] at hcancel
  simp only [byteSum, Config.VER, Config.LEN, BitVec.reduceToNat] at hcancel
  omega

/-- Settles O13: four variable bytes add 0 to 4 * 0xFF to the sum of the constant ones. -/
theorem validChecksumRange : Obligations.ValidChecksumRange := by
  intro f h
  have hcancel := variable_bytes_cancel h
  have hfield := pairU16_toNat f.cksumHi f.cksumLo
  rw [Frame.cksum]
  omega

/-! ### Single errors (40_framecodec.md R86) -/

/-- Two frames agree in every byte but possibly byte `j`. -/
def AgreeExceptAt (j : Nat) (f g : Frame) : Prop := ∀ i, i ≠ j → f.bytes[i]? = g.bytes[i]?

/-- Any nine bytes of a valid frame determine the tenth: a change of one byte moves the sum of
`variable_bytes_cancel` by less than 2^16. -/
theorem eq_of_agreeExceptAt {f g : Frame} {j : Nat} (hf : validateFrame f = true)
    (hg : validateFrame g = true) (h : AgreeExceptAt j f g) : f = g := by
  have hfsum := variable_bytes_cancel hf
  have hgsum := variable_bytes_cancel hg
  obtain ⟨hf0, hf1, hf2, hf9, -⟩ := validateFrame_iff.mp hf
  obtain ⟨hg0, hg1, hg2, hg9, -⟩ := validateFrame_iff.mp hg
  have hcommand (hj : 3 ≠ j) : f.command = g.command := Option.some.inj (h 3 hj)
  have hackFlag (hj : 4 ≠ j) : f.ackFlag = g.ackFlag := Option.some.inj (h 4 hj)
  have hparamHi (hj : 5 ≠ j) : f.paramHi = g.paramHi := Option.some.inj (h 5 hj)
  have hparamLo (hj : 6 ≠ j) : f.paramLo = g.paramLo := Option.some.inj (h 6 hj)
  have hcksumHi (hj : 7 ≠ j) : f.cksumHi = g.cksumHi := Option.some.inj (h 7 hj)
  have hcksumLo (hj : 8 ≠ j) : f.cksumLo = g.cksumLo := Option.some.inj (h 8 hj)
  simp only [← BitVec.toNat_inj] at hcommand hackFlag hparamHi hparamLo hcksumHi hcksumLo
  cases f
  cases g
  simp only [Frame.mk.injEq, ← BitVec.toNat_inj] at *
  omega

theorem Frame.bytes_ofBits {i : Nat} (hi : i < 10) (v : BitVec 80) :
    (Frame.ofBits v).bytes[i]? = some (v.extractLsb' (8 * (9 - i)) 8) := by
  interval_cases i <;> rfl

/-- Flipping bit `k` leaves the bytes alone that do not hold it. -/
theorem extractLsb'_flip {k m : Nat} (h : k / 8 ≠ m) (v : BitVec 80) :
    (v ^^^ (1#80 <<< k)).extractLsb' (8 * m) 8 = v.extractLsb' (8 * m) 8 := by
  apply BitVec.eq_of_getLsbD_eq
  intro i hi
  have hne : k ≠ 8 * m + i := by omega
  simp [← BitVec.twoPow_eq, hne]

theorem ofBits_flip_agreeExceptAt (v : BitVec 80) (k : Nat) :
    AgreeExceptAt (9 - k / 8) (Frame.ofBits (v ^^^ (1#80 <<< k))) (Frame.ofBits v) := by
  intro i hi
  rcases Nat.lt_or_ge i 10 with hlt | hge
  · rw [Frame.bytes_ofBits hlt, Frame.bytes_ofBits hlt, extractLsb'_flip (by omega)]
  · rw [List.getElem?_eq_none hge, List.getElem?_eq_none hge]

theorem flip_ne {k : Nat} (hk : k < 80) (v : BitVec 80) : v ^^^ (1#80 <<< k) ≠ v := by
  intro h
  have hbit := congrArg (·.getLsbD k) h
  simp [← BitVec.twoPow_eq, hk] at hbit

/-- Settles O14: were the frame with the flipped bit valid too, it would be the frame itself, by
`eq_of_agreeExceptAt`. -/
theorem singleBitErrorFails : Obligations.SingleBitErrorFails := by
  intro f k hf hk
  have hagree := ofBits_flip_agreeExceptAt f.toBits k
  rw [Frame.ofBits_toBits] at hagree
  refine Bool.eq_false_iff.mpr fun hg => flip_ne hk f.toBits ?_
  rw [← Frame.toBits_ofBits (_ ^^^ _), eq_of_agreeExceptAt hg hf hagree]

end Sys2Proof

namespace Sys2Proof.Machine

/-! ### The receiver on ten bytes (41_receiver.md R91 to R100) -/

@[simp] theorem feed_nil (s : State) : feed s [] = s := rfl

@[simp] theorem feed_cons (s : State) (b : Byte) (bs : List Byte) :
    feed s (b :: bs) = feed (feedByte s b) bs := rfl

/-- A byte step at a known position is the meaning of that position's row. -/
theorem feedByte_at {s t : State} {r : RxState} {b : Byte} (hr : s.rxState = r)
    (h : exec (rxStepRow r b) s = .next t) : feedByte s b = t := by
  subst hr
  exact Host.Outcome.next.inj ((exec_rxStepRow_feedByte s b).symm.trans h)

theorem feedByte_idle {s : State} (hs : s.rxState = .idle) (b : Byte) :
    feedByte s b = byteStep (if b = Config.HDR then .expectVersion else .idle) .noData s :=
  feedByte_at hs rfl

theorem feedByte_expectVersion {s : State} (hs : s.rxState = .expectVersion) (b : Byte) :
    feedByte s b = if b = Config.VER then byteStep .expectLength .noData s
      else byteStep .idle (.malformed .badVersion) s :=
  feedByte_at hs rfl

theorem feedByte_expectLength {s : State} (hs : s.rxState = .expectLength) (b : Byte) :
    feedByte s b = if b = Config.LEN then byteStep .expectCommand .noData s
      else byteStep .idle (.malformed .badLength) s :=
  feedByte_at hs rfl

/-! ### FrameReady takes ten bytes from Idle -/

/-- One byte moves the position at most one place on (10_state.md R11). -/
theorem feedByte_code_le (s : State) (b : Byte) :
    (feedByte s b).rxState.code.toNat ≤ s.rxState.code.toNat + 1 := by
  cases hr : s.rxState <;> rw [feedByte_at hr rfl]
  case idle => rw [byteStep_rxState]; split <;> decide
  case expectVersion | expectLength => split <;> rw [byteStep_rxState] <;> decide
  all_goals rw [byteStep_rxState]; decide

/-- Only the byte at ExpectEnd can yield FrameReady (41_receiver.md R90, R100). -/
theorem expectEnd_of_frameReady {s : State} {b c : Byte} {p : U16}
    (h : (feedByte s b).report = .frameReady c p) : s.rxState = .expectEnd := by
  by_contra hend
  cases hr : s.rxState <;> rw [feedByte_at hr rfl] at h
  case expectEnd => exact hend hr
  case expectVersion | expectLength => split at h <;> cases h
  all_goals cases h

/-- Bytes that cannot carry the receiver past ExpectEnd do not end in FrameReady. -/
theorem feed_ne_frameReady {s : State} {bs : List Byte} {c : Byte} {p : U16} (hne : bs ≠ [])
    (hlen : s.rxState.code.toNat + bs.length ≤ 9) : (feed s bs).report ≠ .frameReady c p := by
  induction bs generalizing s with
  | nil => exact absurd rfl hne
  | cons b bs ih =>
    rw [List.length_cons] at hlen
    cases bs with
    | nil =>
      intro hready
      rw [expectEnd_of_frameReady hready] at hlen
      exact absurd hlen (by decide)
    | cons b' bs =>
      have hcode := feedByte_code_le s b
      exact ih (by simp) (by omega)

theorem feed_ne_frameReady_of_idle {s : State} {bs : List Byte} {c : Byte} {p : U16}
    (hs : s.rxState = .idle) (hne : bs ≠ []) (hlen : bs.length ≤ 9) :
    (feed s bs).report ≠ .frameReady c p := by
  refine feed_ne_frameReady hne ?_
  rw [hs]
  exact (Nat.zero_add _).trans_le hlen

/-- FrameReady at the tenth byte needs the three constants in front: a wrong one leaves the receiver in
Idle with fewer than ten bytes to come. -/
theorem constants_of_frameReady {s : State} {f : Frame} {c : Byte} {p : U16} (hs : s.rxState = .idle)
    (h : (feed s f.bytes).report = .frameReady c p) :
    f.header = Config.HDR ∧ f.version = Config.VER ∧ f.length = Config.LEN := by
  simp only [Frame.bytes] at h
  rw [feed_cons, feedByte_idle hs] at h
  by_cases hheader : f.header = Config.HDR
  · rw [if_pos hheader, feed_cons, feedByte_expectVersion rfl] at h
    by_cases hversion : f.version = Config.VER
    · rw [if_pos hversion, feed_cons, feedByte_expectLength rfl] at h
      by_cases hlength : f.length = Config.LEN
      · exact ⟨hheader, hversion, hlength⟩
      · rw [if_neg hlength] at h
        exact absurd h (feed_ne_frameReady_of_idle rfl (by simp) (by simp))
    · rw [if_neg hversion] at h
      exact absurd h (feed_ne_frameReady_of_idle rfl (by simp) (by simp))
  · rw [if_neg hheader] at h
    exact absurd h (feed_ne_frameReady_of_idle rfl (by simp) (by simp))

/-! ### Ten bytes with the constants in front -/

/-- The six bytes of a frame that the receiver stores (10_state.md R12). -/
def rxFieldsOf (f : Frame) : RxFields :=
  { command := f.command, ackFlag := f.ackFlag, paramHi := f.paramHi, paramLo := f.paramLo,
    cksumHi := f.cksumHi, cksumLo := f.cksumLo }

/-- With the constants in front the six bytes after them are stored and the last one is judged. -/
theorem feed_bytes_of_constants {s : State} {f : Frame} (hs : s.rxState = .idle)
    (hheader : f.header = Config.HDR) (hversion : f.version = Config.VER)
    (hlength : f.length = Config.LEN) :
    feed s f.bytes =
      byteStep .idle (endResult (rxFieldsOf f) f.endMark) { s with rxf := rxFieldsOf f } := by
  simp only [Frame.bytes]
  rw [feed_cons, feedByte_idle hs, if_pos hheader, feed_cons, feedByte_expectVersion rfl,
    if_pos hversion, feed_cons, feedByte_expectLength rfl, if_pos hlength]
  rfl

theorem endResult_eq_frameReady_iff {x : RxFields} {b : Byte} :
    endResult x b = .frameReady x.command (pairU16 x.paramHi x.paramLo) ↔
      b = Config.END ∧ pairU16 x.cksumHi x.cksumLo =
        checksumOf Config.VER Config.LEN x.command x.ackFlag x.paramHi x.paramLo := by
  unfold endResult
  split_ifs with hend hsum <;> simp [*]

/-- Settles O21: FrameReady needs the constants in front (`constants_of_frameReady`), and with them the end
byte makes the two tests of VALIDATE that are left; fewer bytes are `feed_ne_frameReady_of_idle`. -/
theorem tenBytesReadyIffValid : Obligations.TenBytesReadyIffValid := by
  intro s f hs
  refine ⟨⟨fun hready => ?_, fun hvalid => ?_⟩, fun k c p hk hk' => ?_⟩
  · obtain ⟨hheader, hversion, hlength⟩ := constants_of_frameReady hs hready
    rw [feed_bytes_of_constants hs hheader hversion hlength] at hready
    obtain ⟨hend, hsum⟩ := endResult_eq_frameReady_iff.mp hready
    rw [← hversion, ← hlength] at hsum
    exact validateFrame_iff.mpr ⟨hheader, hversion, hlength, hend, hsum⟩
  · obtain ⟨hheader, hversion, hlength, hend, hsum⟩ := validateFrame_iff.mp hvalid
    rw [feed_bytes_of_constants hs hheader hversion hlength]
    rw [hversion, hlength] at hsum
    exact endResult_eq_frameReady_iff.mpr ⟨hend, hsum⟩
  · have hlen : (f.bytes.take k).length = k := List.length_take_of_le hk'.le
    exact feed_ne_frameReady_of_idle hs (List.ne_nil_of_length_pos (by omega)) (by omega)

end Sys2Proof.Machine

/-! The receiver (41_receiver.md): where the words of a step stand; what a byte step can do, said once; the
way back to Idle; noise before a frame; the time-out check; the rows of the received frames. -/

namespace Sys2Proof.Machine

/-! ### Where words are fetched -/

theorem blockWord_byte {s : State} {b : Byte} {q : List Byte} (hr : s.rpoll = .draining)
    (hq : s.rxq = b :: q) :
    blockWord s = some (.rxByte, rxByteWord s.rxState b, { s with rxq := q }) := by
  simp [blockWord, hr, rxRead, hq]

theorem blockWord_frame {s : State} (hr : s.rpoll = .frame) :
    blockWord s = some (.rxFrame, .rxFrame (assembledFrame s.rxf).toBits, s) := by
  simp [blockWord, hr]

theorem blockWord_txFrame {s : State} {o : Owner} {a : Bool} {c : Byte} {g : U16} (hr : s.rpoll = .none)
    (hp : s.tmPhase = .sendWrite o a c g) :
    blockWord s = some (.txFrame, .txFrame s.txb.toBits, s) := by
  simp [blockWord, hr, hp]

/-- Settles O6: a word of the port or of a pure function stands in its move; the words of the block are
`blockWord_byte`, `blockWord_frame` and `blockWord_txFrame`. -/
theorem whereWordsAreFetched : Obligations.WhereWordsAreFetched := by
  intro s s'
  refine ⟨fun h ht => by rw [fetchWord, ht], fun fn v ht => by rw [fetchWord, ht], fun ht => ?_⟩
  rw [fetchWord_of_block ht]
  exact ⟨fun _ _ => blockWord_byte, blockWord_frame, fun _ _ _ _ => blockWord_txFrame⟩

/-! ### The byte steps, position by position -/

/-- Settles O15: the meanings of the three rows, the constants written out (00_scope.md R5). -/
theorem constantByteSteps : Obligations.ConstantByteSteps :=
  fun _ _ => ⟨rfl, rfl, rfl⟩

/-- Settles O16: the meanings of the six rows. -/
theorem dataByteSteps : Obligations.DataByteSteps :=
  fun _ _ => ⟨rfl, rfl, rfl, rfl, rfl, rfl⟩

/-- The two tests of ExpectEnd by what fails, the end mark first (41_receiver.md R100). -/
theorem endResult_eq_of_failures (x : RxFields) (b : Byte) :
    endResult x b =
      if b ≠ Config.END then .malformed .badEnd
      else if pairU16 x.cksumHi x.cksumLo ≠
          checksumOf Config.VER Config.LEN x.command x.ackFlag x.paramHi x.paramLo then
        .malformed .badChecksum
      else .frameReady x.command (pairU16 x.paramHi x.paramLo) := by
  simp only [endResult, ite_not]

/-- Settles O17: the row's result is `endResult`, its 16-bit fields assembled by shift. -/
theorem endByteStep : Obligations.EndByteStep := by
  intro b s
  rw [shiftLeft_or_eq_pairU16, shiftLeft_or_eq_pairU16]
  exact congrArg (fun y => Host.Outcome.next (byteStep .idle y s)) (endResult_eq_of_failures s.rxf b)

/-! ### What a byte step can do -/

/-- `x'` is `x` with at most one of its registers at the byte `b`. -/
def StoresAtMost (b : Byte) (x x' : RxFields) : Prop :=
  x' = x ∨ x' = { x with command := b } ∨ x' = { x with ackFlag := b } ∨
    x' = { x with paramHi := b } ∨ x' = { x with paramLo := b } ∨
    x' = { x with cksumHi := b } ∨ x' = { x with cksumLo := b }

/-- The results of a byte step other than `continue` (41_receiver.md R90). -/
def IsReport (y : PollResult) : Prop :=
  (∃ c p, y = .frameReady c p) ∨ y = .malformed .badVersion ∨ y = .malformed .badLength ∨
    y = .malformed .badEnd ∨ y = .malformed .badChecksum

theorem IsReport.ne_noData {y : PollResult} (h : IsReport y) : y ≠ .noData := by
  rcases h with ⟨c, p, rfl⟩ | rfl | rfl | rfl | rfl <;> nofun

theorem endResult_isReport (x : RxFields) (b : Byte) : IsReport (endResult x b) := by
  unfold endResult
  split_ifs
  · exact .inl ⟨_, _, rfl⟩
  · exact .inr (.inr (.inr (.inr rfl)))
  · exact .inr (.inr (.inr (.inl rfl)))

/-- What the byte step of a position makes of the state `s` (41_receiver.md R106). -/
inductive ByteStepped (b : Byte) (s : State) : RxState → State → Prop
  /-- Idle discards a byte that is no header (R91). -/
  | discard : ByteStepped b s .idle (byteStep .idle .noData s)
  /-- The byte is as expected, and the position advances by one. -/
  | advance (r r' : RxState) (x : RxFields) (hx : StoresAtMost b s.rxf x) (hcode : r'.code = r.code + 1)
    (hne : r' ≠ .idle) : ByteStepped b s r (byteStep r' .noData { s with rxf := x })
  /-- A constant that is wrong, or the end of the frame. -/
  | report (r : RxState) (y : PollResult) (hy : IsReport y) : ByteStepped b s r (byteStep .idle y s)

/-- The inversion of a byte step: the table of next states, row by row. -/
theorem exec_rxStepRow_cases {r : RxState} {b : Byte} {s t : State}
    (h : exec (rxStepRow r b) s = .next t) : ByteStepped b s r t := by
  cases r <;> cases h
  case idle =>
    split_ifs
    · exact .advance _ _ _ (.inl rfl) rfl nofun
    · exact .discard
  case expectVersion =>
    split_ifs
    · exact .advance _ _ _ (.inl rfl) rfl nofun
    · exact .report _ _ (.inr (.inl rfl))
  case expectLength =>
    split_ifs
    · exact .advance _ _ _ (.inl rfl) rfl nofun
    · exact .report _ _ (.inr (.inr (.inl rfl)))
  case expectEnd => exact .report _ _ (endResult_isReport ..)
  all_goals exact .advance _ _ _ (by simp [StoresAtMost]) rfl nofun

/-- Settles O18: `exec_rxStepRow_cases`; each of its cases writes the position, the registers and the result
alone. -/
theorem byteStepWritesOnlyReceiver : Obligations.ByteStepWritesOnlyReceiver := by
  intro r b s t h
  cases exec_rxStepRow_cases h with
  | discard => exact ⟨rfl, .inl rfl, .inl rfl⟩
  | advance r r' x hx => exact ⟨rfl, hx, .inl rfl⟩
  | report r y hy => exact ⟨rfl, .inl rfl, .inr hy⟩

/-- Settles O19: by `exec_rxStepRow_cases`, since no position after another one is Idle. -/
theorem positionAdvancesOrReportsIdle : Obligations.PositionAdvancesOrReportsIdle := by
  intro r b s t h
  cases exec_rxStepRow_cases h with
  | discard => exact ⟨.inl rfl, fun _ => rfl, fun hr => absurd rfl hr⟩
  | advance r r' x _ hcode hne => exact ⟨.inr hcode, fun hy => absurd rfl hy, fun _ hr' => absurd hr' hne⟩
  | report r y hy => exact ⟨.inl rfl, fun _ => rfl, fun _ _ => hy.ne_noData⟩

/-! ### The way back to Idle (41_receiver.md R107) -/

theorem rxCode_toNat_le (r : RxState) : r.code.toNat ≤ 9 := by
  cases r <;> decide

theorem feedByte_idle_or_advance (s : State) (b : Byte) :
    (feedByte s b).rxState = .idle ∨
      (feedByte s b).rxState.code.toNat = s.rxState.code.toNat + 1 := by
  obtain ⟨hnext, -, -⟩ := positionAdvancesOrReportsIdle _ b s _ (exec_rxStepRow_feedByte s b)
  have hle := rxCode_toNat_le s.rxState
  exact hnext.imp_right fun hcode => by rw [hcode]; bv_omega

/-- There are ten positions: bytes enough to advance past the last one lead through Idle. -/
theorem exists_feed_take_idle {s : State} {bs : List Byte}
    (h : 10 ≤ s.rxState.code.toNat + bs.length) :
    ∃ k, 1 ≤ k ∧ k ≤ bs.length ∧ (feed s (bs.take k)).rxState = .idle := by
  induction bs generalizing s with
  | nil =>
    have hle := rxCode_toNat_le s.rxState
    rw [List.length_nil] at h
    omega
  | cons b bs ih =>
    rw [List.length_cons] at h ⊢
    rcases feedByte_idle_or_advance s b with hidle | hcode
    · exact ⟨1, le_rfl, by omega, hidle⟩
    · obtain ⟨k, -, hk, hidle⟩ := ih (s := feedByte s b) (by omega)
      exact ⟨k + 1, by omega, by omega, hidle⟩

theorem rxCode_toNat_pos {r : RxState} (h : r ≠ .idle) : 1 ≤ r.code.toNat := by
  cases r
  case idle => exact absurd rfl h
  all_goals decide

/-- Settles O20: a position other than Idle has code 1 at least, so nine bytes lead through Idle
(`exists_feed_take_idle`). -/
theorem idleWithinNineBytes : Obligations.IdleWithinNineBytes := by
  intro s bs hs hlen
  have hpos := rxCode_toNat_pos hs
  obtain ⟨k, hk, hk', hidle⟩ := exists_feed_take_idle (s := s) (bs := bs) (by omega)
  exact ⟨k, hk, by omega, hidle⟩

/-! ### Noise and then a frame (41_receiver.md R107) -/

theorem feedReports_cons (s : State) (b : Byte) (bs : List Byte) :
    feedReports s (b :: bs) = (feedByte s b).report :: feedReports (feedByte s b) bs := rfl

theorem feedReports_append (s : State) (as bs : List Byte) :
    feedReports s (as ++ bs) = feedReports s as ++ feedReports (feed s as) bs := by
  induction as generalizing s with
  | nil => rfl
  | cons a as ih => rw [List.cons_append, feedReports_cons, feedReports_cons, ih]; rfl

/-- Without a header the receiver stays in Idle and reports nothing (41_receiver.md R91). -/
theorem feed_noise {s : State} {noise : List Byte} (hs : s.rxState = .idle)
    (hnoise : ∀ b ∈ noise, b ≠ Config.HDR) :
    (feed s noise).rxState = .idle ∧ feedReports s noise = List.replicate noise.length .noData := by
  induction noise generalizing s with
  | nil => exact ⟨hs, rfl⟩
  | cons b bs ih =>
    obtain ⟨hb, hbs⟩ := List.forall_mem_cons.mp hnoise
    rw [feed_cons, feedReports_cons, feedByte_idle hs, if_neg hb]
    obtain ⟨hidle, hreports⟩ := ih (s := byteStep .idle .noData s) rfl hbs
    exact ⟨hidle, congrArg (.noData :: ·) hreports⟩

/-- With the constants in front only the tenth byte yields more than `continue`. -/
theorem feedReports_bytes_of_constants {s : State} {f : Frame} (hs : s.rxState = .idle)
    (hheader : f.header = Config.HDR) (hversion : f.version = Config.VER)
    (hlength : f.length = Config.LEN) :
    feedReports s f.bytes = List.replicate 9 .noData ++ [endResult (rxFieldsOf f) f.endMark] := by
  simp only [Frame.bytes]
  rw [feedReports_cons, feedByte_idle hs, if_pos hheader, feedReports_cons, feedByte_expectVersion rfl,
    if_pos hversion, feedReports_cons, feedByte_expectLength rfl, if_pos hlength]
  rfl

theorem feedReports_bytes_of_valid {s : State} {f : Frame} (hs : s.rxState = .idle)
    (hvalid : validateFrame f = true) :
    feedReports s f.bytes = List.replicate 9 .noData ++ [.frameReady f.command f.parameter] := by
  obtain ⟨hheader, hversion, hlength, hend, hsum⟩ := validateFrame_iff.mp hvalid
  rw [hversion, hlength] at hsum
  have hready : endResult (rxFieldsOf f) f.endMark = .frameReady f.command f.parameter :=
    endResult_eq_frameReady_iff.mpr ⟨hend, hsum⟩
  rw [feedReports_bytes_of_constants hs hheader hversion hlength, hready]

/-- Settles O22: the noise leaves the receiver in Idle (`feed_noise`), from where the frame reports at its
last byte (`feedReports_bytes_of_valid`). -/
theorem noiseThenFrameReportsOnce : Obligations.NoiseThenFrameReportsOnce := by
  intro s noise f hs hnoise hvalid
  obtain ⟨hidle, hreports⟩ := feed_noise hs hnoise
  rw [feedReports_append, hreports, feedReports_bytes_of_valid hidle hvalid, List.replicate_add,
    List.append_assoc]

/-! ### The time-out check -/

/-- A time-out is due when a transaction that wants an acknowledgment is pending and its deadline has
passed, the difference taken modulo 2^32 (41_receiver.md R104, 43_transaction.md R152). -/
theorem timeoutDue_iff (s : State) :
    timeoutDue s = true ↔
      s.pending.valid = true ∧ s.pending.requiresAck = true ∧
        s.pending.deadline.toNat ≤ (s.clock - s.pending.sentAt).toNat := by
  simp only [timeoutDue, hasElapsed, elapsed, now, Bool.and_eq_true, decide_eq_true_eq, and_assoc,
    BitVec.le_def]

/-- Settles O24: the step is the time-out check (`step_block_timeout`), which takes the error TimedOut where
`timeoutDue_iff` says. -/
theorem timeoutCheckedWhenQueueEmpty : Obligations.TimeoutCheckedWhenQueueEmpty := by
  intro s s' ht hr hq
  simp only [step_block_timeout ht hr hq, ← timeoutDue_iff]
  rcases timeoutCheck_cases s' with ⟨hdue, h⟩ | ⟨hdue, h⟩ <;> rw [h, hdue] <;> rfl

/-! ### The rows of the received frames follow CLASSIFY (42_classifier.md R110) -/

/-- Instruction `i` is the reception of this frame with the outcome of CLASSIFY. -/
def ReceivesClassified (c a : Byte) (p k : U16) (i : Instr) : Prop :=
  ∀ s, exec i s = .next (receiveFrame (classify c p) c a p k s)

/-- The rows told apart by parameter bits 0 and 1, where CLASSIFY makes the same tests (42_classifier.md
R133). -/
theorem firstBitRow_receivesClassified {c a : Byte} {p k : U16} {x y z : Instr} {ox oy oz : ClassOutcome}
    (hclass : classify c p = if p.getLsbD 0 then ox else if p.getLsbD 1 then oy else oz)
    (hx : ∀ s, exec x s = .next (receiveFrame ox c a p k s))
    (hy : ∀ s, exec y s = .next (receiveFrame oy c a p k s))
    (hz : ∀ s, exec z s = .next (receiveFrame oz c a p k s)) :
    ReceivesClassified c a p k (if p.getLsbD 0 then x else if p.getLsbD 1 then y else z) := by
  unfold ReceivesClassified
  rw [hclass]
  split_ifs
  · exact hx
  · exact hy
  · exact hz

theorem rx3aRow_receivesClassified (a : Byte) (p k : U16) :
    ReceivesClassified 0x3A a p k (rx3aRow a p k) :=
  firstBitRow_receivesClassified rfl (fun _ => rfl) (fun _ => rfl) (fun _ => rfl)

theorem rx3bRow_receivesClassified (a : Byte) (p k : U16) :
    ReceivesClassified 0x3B a p k (rx3bRow a p k) :=
  firstBitRow_receivesClassified rfl (fun _ => rfl) (fun _ => rfl) (fun _ => rfl)

/-- The test for both bits, made last, cannot succeed (90_conflicts.md C4). -/
theorem classify_3f (p : U16) :
    classify 0x3F p =
      if p.getLsbD 0 then .event .usbOnline else if p.getLsbD 1 then .event .cardOnline else .noMatch := by
  change classify3f p = _
  unfold classify3f
  cases p.getLsbD 0 <;> rfl

theorem rx3fRow_receivesClassified (a : Byte) (p k : U16) :
    ReceivesClassified 0x3F a p k (rx3fRow a p k) :=
  firstBitRow_receivesClassified (classify_3f p) (fun _ => rfl) (fun _ => rfl) (fun _ => rfl)

theorem rxFeedbackLowRow_receivesClassified {c a : Byte} {p k : U16} {i : Instr}
    (h : rxFeedbackLowRow c a p k = some i) : ReceivesClassified c a p k i := by
  unfold rxFeedbackLowRow at h
  repeat' split at h
  all_goals cases h <;> subst_vars <;> exact fun _ => rfl

theorem rxFeedbackHighRow_receivesClassified {c a : Byte} {p k : U16} {i : Instr}
    (h : rxFeedbackHighRow c a p k = some i) : ReceivesClassified c a p k i := by
  unfold rxFeedbackHighRow at h
  repeat' split at h
  all_goals cases h <;> subst_vars <;> exact fun _ => rfl

theorem classify_of_unlisted {c : Byte} (hc : Unlisted c) (p : U16) : classify c p = .fail := by
  have listed_ne (b : Byte) (hb : ¬ Unlisted b) : c ≠ b := fun h => hb (h ▸ hc)
  simp (disch := simp [Unlisted]) [classify, feedBackCommands, Config.CMD_ACK, listed_ne]

theorem rxUnlistedRow_receivesClassified {c : Byte} (hc : Unlisted c) (a : Byte) (p k : U16) :
    ReceivesClassified c a p k (rxUnlistedRow c a p k) := by
  unfold ReceivesClassified
  rw [classify_of_unlisted hc]
  by_cases h4a : c = 0x4A
  · subst h4a
    exact fun _ => rfl
  · rw [rxUnlistedRow, if_neg h4a]
    split_ifs <;> exact fun _ => rfl

/-- The row of a received frame applies what CLASSIFY says, if the checksum field holds. -/
theorem exec_rxRow (c a : Byte) (p k : U16) (s : State) :
    exec (rxRow c a p k) s = .next (receiveFrame (classify c p) c a p k s) := by
  suffices h : ReceivesClassified c a p k (rxRow c a p k) from h s
  unfold rxRow
  split_ifs with h3a h3b h3d h3f h40 h41
  · exact h3a ▸ rx3aRow_receivesClassified a p k
  · exact h3b ▸ rx3bRow_receivesClassified a p k
  · exact h3d ▸ fun _ => rfl
  · exact h3f ▸ rx3fRow_receivesClassified a p k
  · exact h40 ▸ fun _ => rfl
  · exact h41 ▸ fun _ => rfl
  cases hlow : rxFeedbackLowRow c a p k with
  | some i => exact rxFeedbackLowRow_receivesClassified hlow
  | none =>
    cases hhigh : rxFeedbackHighRow c a p k with
    | some i => exact rxFeedbackHighRow_receivesClassified hhigh
    | none =>
      exact rxUnlistedRow_receivesClassified
        (unlisted_of_not_listed h3a h3b h3d h3f h40 h41 hlow hhigh) a p k

/-- Settles O34: the row receives the frame of its own command (`exec_rxRow`), and a wrong checksum field is
an error taken without a command. -/
theorem badChecksumFrames : Obligations.BadChecksumFrames := by
  intro c a p k s hk
  rw [exec_rxRow, receiveFrame, if_neg hk]
  rfl

end Sys2Proof.Machine

/-! The classifier (42_classifier.md): the outcome of a frame with the right checksum field, row by row, and
who writes the kind of the event slot. -/

namespace Sys2Proof.Machine

/-! ### What CLASSIFY answers -/

theorem classify_3a (p : U16) :
    classify 0x3A p =
      if p.getLsbD 0 then .event .usbInserted else if p.getLsbD 1 then .event .cardInserted else .noMatch :=
  rfl

theorem classify_3b (p : U16) :
    classify 0x3B p =
      if p.getLsbD 0 then .event .usbRemoved else if p.getLsbD 1 then .event .cardRemoved else .noMatch :=
  rfl

theorem classify_of_feedBack {c : Byte} (hc : c ∈ feedBackCommands) (p : U16) :
    classify c p = .event .feedBack := by
  have other_ne (b : Byte) (hb : b ∉ feedBackCommands) : c ≠ b := fun h => hb (h ▸ hc)
  rw [classify, if_neg (other_ne _ (by decide)), if_neg (other_ne _ (by decide)),
    if_neg (other_ne _ (by decide)), if_neg (other_ne _ (by decide)), if_neg (other_ne _ (by decide)),
    if_neg (other_ne _ (by decide)), if_pos hc]

/-- CardUSBOnline is the outcome of the third test of 0x3F alone, which cannot succeed (90_conflicts.md
C4). -/
theorem classify_ne_cardUsbOnline (c : Byte) (p : U16) : classify c p ≠ .event .cardUsbOnline := by
  by_cases h3f : c = 0x3F
  · rw [h3f, classify_3f]
    split_ifs <;> nofun
  · simp only [classify, if_neg h3f, classify3a, classify3b]
    split_ifs <;> nofun

/-! ### Frames with the right checksum field -/

theorem receiveFrame_of_checksum (o : ClassOutcome) (c a : Byte) (p : U16) (s : State) :
    receiveFrame o c a p (frameChecksum c a p) s = applyOutcome o c p s := if_pos rfl

/-- Settles O35: the frame decodes to its row (`decode_rxWord`), which applies what CLASSIFY says
(`exec_rxRow`), the checksum field being right. -/
theorem frameRowsFollowClassify : Obligations.FrameRowsFollowClassify := by
  intro c a p s
  refine ⟨_, decode_rxWord c a p _, ?_⟩
  rw [exec_rxRow, receiveFrame_of_checksum]

section
variable {i : Instr} {c a : Byte} {p : U16} {s : State}

/-- A row that is the reception of an event delivers it where CLASSIFY says so too. -/
theorem deliversEvent_of_row {k : EventKind} (hclass : classify c p = .event k)
    (hrow : exec i s = .next (receiveFrame (.event k) c a p (frameChecksum c a p) s)) :
    deliversEvent i k c p s :=
  ⟨hclass, by rw [hrow, receiveFrame_of_checksum]; rfl⟩

theorem deliversEvent_of_feedBackRow (hc : c ∈ feedBackCommands)
    (hrow : exec i s = .next (receiveFrame (.event .feedBack) c a p (frameChecksum c a p) s)) :
    deliversEvent i .feedBack c p s :=
  deliversEvent_of_row (classify_of_feedBack hc p) hrow

theorem dropsFrame_of_row (hclass : classify c p = .noMatch)
    (hrow : exec i s = .next (receiveFrame .noMatch c a p (frameChecksum c a p) s)) :
    dropsFrame i c p s :=
  ⟨hclass, by rw [hrow, receiveFrame_of_checksum]; rfl⟩

theorem failsFrame_of_row (hc : Unlisted c)
    (hrow : exec i s = .next (receiveFrame .fail c a p (frameChecksum c a p) s)) :
    failsFrame i c p s :=
  ⟨classify_of_unlisted hc p, by rw [hrow, receiveFrame_of_checksum]; rfl⟩

end

/-- Settles O29: each command is in the list of those that give FeedBack. -/
theorem feedBackFramesLow : Obligations.FeedBackFramesLow := by
  intro a p s
  refine ⟨?_, ?_, ?_, ?_, ?_, ?_, ?_, ?_⟩ <;> exact deliversEvent_of_feedBackRow (by decide) rfl

/-- Settles O30: each command is in the list of those that give FeedBack. -/
theorem feedBackFramesHigh : Obligations.FeedBackFramesHigh := by
  intro a p s
  refine ⟨?_, ?_, ?_, ?_, ?_, ?_, ?_⟩ <;> exact deliversEvent_of_feedBackRow (by decide) rfl

/-- Settles O31: the tests of `classify_3a`, `classify_3b` and `classify_3f`, by the two bits. -/
theorem statusBitFrames : Obligations.StatusBitFrames := by
  intro a p s
  refine ⟨fun h0 => ?_, fun h0 h1 => ?_, fun h0 h1 => ?_⟩
  · exact ⟨deliversEvent_of_row (by rw [classify_3a, if_pos h0]) rfl,
      deliversEvent_of_row (by rw [classify_3b, if_pos h0]) rfl,
      deliversEvent_of_row (by rw [classify_3f, if_pos h0]) rfl⟩
  · have h0 := Bool.eq_false_iff.mp h0
    exact ⟨deliversEvent_of_row (by rw [classify_3a, if_neg h0, if_pos h1]) rfl,
      deliversEvent_of_row (by rw [classify_3b, if_neg h0, if_pos h1]) rfl,
      deliversEvent_of_row (by rw [classify_3f, if_neg h0, if_pos h1]) rfl⟩
  · have h0 := Bool.eq_false_iff.mp h0
    have h1 := Bool.eq_false_iff.mp h1
    exact ⟨dropsFrame_of_row (by rw [classify_3a, if_neg h0, if_neg h1]) rfl,
      dropsFrame_of_row (by rw [classify_3b, if_neg h0, if_neg h1]) rfl,
      dropsFrame_of_row (by rw [classify_3f, if_neg h0, if_neg h1]) rfl⟩

/-- Settles O32: two events whatever the parameter, and the acknowledgment, which is `clearPending`. -/
theorem playFinishedErrorAndAckFrames : Obligations.PlayFinishedErrorAndAckFrames := by
  intro a p s
  have hack : exec (.rx41Ack a p (frameChecksum 0x41 a p)) s = .next (clearPending s) :=
    congrArg Host.Outcome.next (receiveFrame_of_checksum .ack 0x41 a p s)
  exact ⟨deliversEvent_of_row rfl rfl, deliversEvent_of_row rfl rfl, rfl, hack⟩

/-- Settles O33: every range of rows holds unlisted commands. -/
theorem unlistedFramesFail : Obligations.UnlistedFramesFail := by
  intro c a p s
  exact ⟨fun h => failsFrame_of_row (.inl (by omega)) rfl,
    fun _ h => failsFrame_of_row (.inl (by omega)) rfl,
    fun _ h => failsFrame_of_row (.inl (by omega)) rfl,
    fun _ h => failsFrame_of_row (.inl (by omega)) rfl,
    failsFrame_of_row (.inr (.inl rfl)) rfl,
    fun h _ => failsFrame_of_row (.inr (.inr (by omega))) rfl,
    fun h _ => failsFrame_of_row (.inr (.inr (by omega))) rfl,
    fun h => failsFrame_of_row (.inr (.inr (by omega))) rfl⟩

/-! ### The operations leave the kind alone -/

@[simp] theorem startSend_ev (o : Owner) (c : Byte) (g : U16) (a : Bool) (s : State) :
    (startSend o c g a s).ev = s.ev := by
  rcases startSend_cases o c g a s with ⟨-, -, h⟩ | ⟨-, h⟩ <;> simp [h]

@[simp] theorem finishInit_evKind (arrived : Bool) (s : State) :
    (finishInit arrived s).ev.kind = s.ev.kind := rfl

@[simp] theorem afterWrite_ev (s : State) : (afterWrite s).ev = s.ev := by
  rcases afterWrite_cases s with ⟨_, _, _, -, h⟩ | ⟨_, _, _, -, h⟩ | ⟨-, h⟩ <;> rw [h]

@[simp] theorem sendReturn_ev (o : Owner) (s : State) : (sendReturn o s).ev = s.ev := by
  rcases sendReturn_cases o s with ⟨-, h⟩ | ⟨_, -, h⟩ <;> simp [h]

@[simp] theorem finishQuery_evKind (arrived : Bool) (s : State) :
    (finishQuery arrived s).ev.kind = s.ev.kind := by
  rcases finishQuery_cases arrived s with ⟨-, h⟩ | ⟨-, h⟩ <;> simp [h]

@[simp] theorem waitReturn_evKind (o : Owner) (arrived : Bool) (s : State) :
    (waitReturn o arrived s).ev.kind = s.ev.kind := by
  rcases waitReturn_cases o arrived s with ⟨-, h⟩ | ⟨-, h⟩ | ⟨-, h⟩ <;> simp [h]

theorem pollReturn_evKind (s : State) : (pollReturn s).ev.kind = s.ev.kind := by
  rcases pollReturn_cases s with ⟨-, h⟩ | ⟨_, _, _, -, ⟨-, h⟩ | ⟨-, h⟩⟩ |
    ⟨_, _, _, -, ⟨-, h⟩ | ⟨-, -, h⟩ | ⟨-, -, h⟩⟩ | ⟨-, h⟩ <;> simp [h]

theorem phaseStep_evKind (s : State) : (phaseStep s).ev.kind = s.ev.kind := by
  rcases phaseStep_cases s with ⟨-, h⟩ | ⟨-, h⟩ | ⟨_, _, _, _, -, h⟩ | ⟨_, _, _, -, h⟩ |
    ⟨_, _, -, ⟨-, h⟩ | ⟨-, h⟩⟩ | ⟨_, _, -, h⟩ | ⟨_, _, -, ⟨-, h⟩ | ⟨-, h⟩⟩ <;> simp [h]

theorem feedByte_ev (s : State) (b : Byte) : (feedByte s b).ev = s.ev := by
  obtain ⟨_, _, _, h, -⟩ := feedByte_cases s b
  rw [h]

/-! ### What is written to the kind -/

/-- From `s` to `t` the kind is kept, or another one than CardUSBOnline is written. -/
def WritesNoCardUsb (s t : State) : Prop := t.ev.kind = s.ev.kind ∨ t.ev.kind ≠ .cardUsbOnline

theorem errKind_ne_cardUsbOnline (e : ErrCause) : errKind e ≠ .cardUsbOnline := by
  cases e <;> nofun

theorem takeFrameError_writesNoCardUsb (e : ErrCause) (c : Option Byte) (s : State) :
    WritesNoCardUsb s (takeFrameError e c s) := .inr (errKind_ne_cardUsbOnline e)

/-- An outcome of CLASSIFY writes the kind that it names. -/
theorem applyOutcome_writesNoCardUsb {o : ClassOutcome} (ho : o ≠ .event .cardUsbOnline) (c : Byte)
    (p : U16) (s : State) : WritesNoCardUsb s (applyOutcome o c p s) := by
  cases o with
  | event k => exact .inr fun hk => ho (congrArg ClassOutcome.event hk)
  | ack => exact .inl rfl
  | noMatch => exact .inl rfl
  | fail => exact takeFrameError_writesNoCardUsb ..

theorem exec_rxRow_writesNoCardUsb {c a : Byte} {p k : U16} {s u : State}
    (h : exec (rxRow c a p k) s = .next u) : WritesNoCardUsb s u := by
  cases (exec_rxRow c a p k s).symm.trans h
  rcases receiveFrame_cases (classify c p) c a p k s with ⟨-, h'⟩ | ⟨-, h'⟩ <;> rw [h']
  · exact applyOutcome_writesNoCardUsb (classify_ne_cardUsbOnline c p) c p s
  · exact takeFrameError_writesNoCardUsb ..

/-- After its byte a poll writes the kind only where it takes an error. -/
theorem afterByte_writesNoCardUsb (s : State) : WritesNoCardUsb s (afterByte s) := by
  rcases afterByte_cases s with ⟨_, _, -, h⟩ | ⟨e, -, h⟩ | ⟨-, h⟩ <;> rw [h]
  · exact .inl rfl
  · exact takeFrameError_writesNoCardUsb e none s
  · exact .inl rfl

theorem timeoutCheck_writesNoCardUsb (s : State) : WritesNoCardUsb s (timeoutCheck s) := by
  rcases timeoutCheck_cases s with ⟨-, h⟩ | ⟨-, h⟩ <;> rw [h]
  · exact takeFrameError_writesNoCardUsb .timedOut none s
  · exact .inl rfl

/-- Among the host's words INIT without a reset alone writes the kind: the assumed one (44_driver.md
R164). -/
theorem HostEffect.writesNoCardUsb {i : Instr} {s t : State} (h : HostEffect s i t) :
    WritesNoCardUsb s t := by
  cases h with
  | initWithoutReset a => exact .inr nofun
  | initWithReset a => exact .inl (by rw [startSend_ev]; rfl)
  | send o c g a => exact .inl (by rw [startSend_ev])
  | nop | poll | waitev | read => exact .inl rfl

/-- Every move but the reset line keeps the kind or writes another one than CardUSBOnline. -/
theorem MoveStep.writesNoCardUsb {s t : State} {m : Move} (h : MoveStep s m t) (hm : m ≠ .reset) :
    WritesNoCardUsb s t := by
  cases h with
  | phase hr => exact .inl (phaseStep_evKind s)
  | byte b q hr hq =>
    have hbyte := afterByte_writesNoCardUsb (feedByte { s with rxq := q } b)
    rwa [WritesNoCardUsb, feedByte_ev] at hbyte
  | timeout hr hq => exact timeoutCheck_writesNoCardUsb s
  | frame u hr he =>
    have hframe : WritesNoCardUsb s u := exec_rxRow_writesNoCardUsb he
    exact hframe
  | pollReturn hr => exact .inl (pollReturn_evKind s)
  | host w i t hd hp he => exact he.writesNoCardUsb
  | reset => exact absurd rfl hm
  | notAccepted | codec | envRx | envTick | envDrop => exact .inl rfl

/-- Settles O36: `MoveStep.writesNoCardUsb` for the move taken. -/
theorem cardUsbOnlineNeverWritten : Obligations.CardUsbOnlineNeverWritten := by
  intro s t h hreset ht
  obtain ⟨m, r, hm, hstep⟩ := step_moveStep h
  rw [hm] at hreset
  rcases hstep.writesNoCardUsb hreset with hkept | hne
  · exact hkept.symm.trans ht
  · exact absurd ht hne

end Sys2Proof.Machine

/-! The transaction manager (43_transaction.md): what a step makes of TXLOG and of the pending transaction,
said once, with the two statements that follow from it; SEND and WAITEV step by step; SEND as one run. -/

namespace Sys2Proof.Machine

/-! ### The operations that touch neither TXLOG nor the pending transaction -/

/-- From `s` to `t` TXLOG and the pending transaction are kept. -/
structure KeepsLogAndPending (s t : State) : Prop where
  txlog : t.txlog = s.txlog
  pending : t.pending = s.pending

theorem startSend_keepsLogAndPending (o : Owner) (c : Byte) (g : U16) (a : Bool) (s : State) :
    KeepsLogAndPending s (startSend o c g a s) := by
  rcases startSend_cases o c g a s with ⟨-, -, h⟩ | ⟨-, h⟩ <;> rw [h] <;> exact ⟨rfl, rfl⟩

theorem afterWrite_keepsLogAndPending (s : State) : KeepsLogAndPending s (afterWrite s) := by
  rcases afterWrite_cases s with ⟨_, _, _, -, h⟩ | ⟨_, _, _, -, h⟩ | ⟨-, h⟩ <;> rw [h] <;> exact ⟨rfl, rfl⟩

theorem sendReturn_keepsLogAndPending (o : Owner) (s : State) : KeepsLogAndPending s (sendReturn o s) := by
  rcases sendReturn_cases o s with ⟨-, h⟩ | ⟨_, -, h⟩ <;> rw [h] <;> exact ⟨rfl, rfl⟩

theorem waitReturn_keepsLogAndPending (o : Owner) (arrived : Bool) (s : State) :
    KeepsLogAndPending s (waitReturn o arrived s) := by
  rcases waitReturn_cases o arrived s with ⟨-, h⟩ | ⟨-, h⟩ | ⟨-, h⟩ <;> rw [h]
  · exact ⟨rfl, rfl⟩
  · exact ⟨rfl, rfl⟩
  · rcases finishQuery_cases arrived s with ⟨-, h'⟩ | ⟨-, h'⟩ <;> rw [h'] <;> exact ⟨rfl, rfl⟩

theorem pollReturn_keepsLogAndPending (s : State) : KeepsLogAndPending s (pollReturn s) := by
  rcases pollReturn_cases s with ⟨-, h⟩ | ⟨_, _, _, -, ⟨-, h⟩ | ⟨-, h⟩⟩ |
    ⟨_, _, _, -, ⟨-, h⟩ | ⟨-, -, h⟩ | ⟨-, -, h⟩⟩ | ⟨-, h⟩ <;> rw [h]
  case inr.inr.inl.inl | inr.inr.inl.inr.inl => exact waitReturn_keepsLogAndPending ..
  all_goals exact ⟨rfl, rfl⟩

theorem HostEffect.keepsLogAndPending {i : Instr} {s t : State} (h : HostEffect s i t) :
    KeepsLogAndPending s t := by
  cases h with
  | initWithReset a =>
    obtain ⟨hlog, hpend⟩ :=
      startSend_keepsLogAndPending .init Config.RESET_CMD Config.RESET_ARG a (setAckMode a s)
    exact ⟨hlog, hpend⟩
  | send => exact startSend_keepsLogAndPending ..
  | nop | initWithoutReset | poll | waitev | read => exact ⟨rfl, rfl⟩

/-- A byte step in a poll may take an error of the receiver, which is never a time-out: the transaction
stays (60_exceptions.md R184). -/
theorem byteStep_keepsLogAndPending (s : State) (b : Byte) :
    KeepsLogAndPending s (afterByte (feedByte s b)) := by
  have h := exec_rxStepRow_cases (exec_rxStepRow_feedByte s b)
  generalize s.rxState = r, feedByte s b = u at h
  cases h with
  | discard => exact ⟨rfl, rfl⟩
  | advance => exact ⟨rfl, rfl⟩
  | report r y hy => rcases hy with ⟨c, p, rfl⟩ | rfl | rfl | rfl | rfl <;> exact ⟨rfl, rfl⟩

/-! ### What a received frame does to the transaction -/

/-- CLASSIFY acknowledges for the command 0x41 alone (42_classifier.md R110). -/
theorem command_of_classify_ack {c : Byte} {p : U16} (h : classify c p = .ack) : c = Config.CMD_ACK := by
  by_contra hc
  simp only [classify, if_neg hc, classify3a, classify3b, classify3f] at h
  split_ifs at h

/-- The frame in RXF is an ACK with the right checksum field. -/
def HoldsAck (x : RxFields) : Prop := x.command = Config.CMD_ACK ∧ validateFrame (assembledFrame x) = true

/-- The classification of the frame in RXF leaves TXLOG alone, and touches the transaction only where the
frame is a valid ACK (42_classifier.md R135). -/
theorem exec_assembledFrame_cases {s u : State}
    (h : exec (rxRow s.rxf.command s.rxf.ackFlag (pairU16 s.rxf.paramHi s.rxf.paramLo)
      (pairU16 s.rxf.cksumHi s.rxf.cksumLo)) s = .next u) :
    KeepsLogAndPending s u ∨ HoldsAck s.rxf ∧ u = clearPending s := by
  cases (exec_rxRow ..).symm.trans h
  rcases receiveFrame_cases _ s.rxf.command s.rxf.ackFlag (pairU16 s.rxf.paramHi s.rxf.paramLo)
    (pairU16 s.rxf.cksumHi s.rxf.cksumLo) s with ⟨hsum, h'⟩ | ⟨-, h'⟩ <;> rw [h']
  · rcases applyOutcome_cases _ s.rxf.command (pairU16 s.rxf.paramHi s.rxf.paramLo) s with
      ⟨k, -, ho⟩ | ⟨hack, ho⟩ | ⟨-, ho⟩ | ⟨-, ho⟩ <;> rw [ho]
    · exact .inl ⟨rfl, rfl⟩
    · refine .inr ⟨⟨command_of_classify_ack hack, validateFrame_iff.mpr ⟨rfl, rfl, rfl, rfl, ?_⟩⟩, rfl⟩
      rw [frameChecksum, hiByte_pair, loByte_pair] at hsum
      exact hsum
    · exact .inl ⟨rfl, rfl⟩
    · exact .inl ⟨rfl, rfl⟩
  · exact .inl ⟨rfl, rfl⟩

/-! ### One step, by what it makes of TXLOG and the transaction -/

/-- What the move `m` makes of TXLOG and of the pending transaction of `s`. -/
inductive TransactionStep (s : State) : Move → State → Prop
  | keeps (m : Move) (t : State) (h : KeepsLogAndPending s t) : TransactionStep s m t
  /-- SEND's `TxWrite` of the transmit buffer (43_transaction.md R142). -/
  | writes (t : State) (o : Owner) (a : Bool) (c : Byte) (g : U16) (hp : s.tmPhase = .sendWrite o a c g)
    (hlog : t.txlog = s.txlog ++ s.txb.bytes) (hpend : t.pending = s.pending) : TransactionStep s .block t
  /-- SEND's record of its transaction (R145). -/
  | records (t : State) (o : Owner) (c : Byte) (g : U16) (hp : s.tmPhase = .sendRecord o c g)
    (hlog : t.txlog = s.txlog) (hpend : t.pending.valid = true) : TransactionStep s .block t
  /-- The first of the two events that resolve a transaction: a valid ACK frame (R147). -/
  | acknowledged (t : State) (hr : s.rpoll = .frame) (hack : HoldsAck s.rxf)
    (hlog : t.txlog = s.txlog) (hpend : t.pending.valid = false) : TransactionStep s .block t
  /-- The second of the two: the time-out check (R147). -/
  | timesOut (t : State) (hr : s.rpoll = .draining) (hq : s.rxq = []) (hdue : timeoutDue s = true)
    (hlog : t.txlog = s.txlog) (hpend : t.pending.valid = false) : TransactionStep s .block t
  | reset (t : State) (hlog : t.txlog = s.txlog) (hpend : t.pending.valid = false) :
    TransactionStep s .reset t

/-- The step of an operation outside its poll writes or records where it is a SEND that comes to that. -/
theorem phaseStep_transactionStep (s : State) : TransactionStep s .block (phaseStep s) := by
  rcases phaseStep_cases s with ⟨-, h⟩ | ⟨-, h⟩ | ⟨o, a, c, g, hp, h⟩ | ⟨o, c, g, hp, h⟩ |
    ⟨o, _, -, ⟨-, h⟩ | ⟨-, h⟩⟩ | ⟨_, _, -, h⟩ | ⟨_, _, -, ⟨-, h⟩ | ⟨-, h⟩⟩ <;> rw [h]
  case inr.inr.inl =>
    obtain ⟨hlog, hpend⟩ := afterWrite_keepsLogAndPending (txWrite s.txb s)
    exact .writes _ o a c g hp hlog hpend
  case inr.inr.inr.inl =>
    obtain ⟨hlog, hpend⟩ := sendReturn_keepsLogAndPending o (recordPending c g s)
    exact .records _ o c g hp hlog (congrArg Pending.valid hpend)
  case inr.inr.inr.inr.inl.inl => exact .keeps _ _ (sendReturn_keepsLogAndPending o s)
  all_goals exact .keeps _ _ ⟨rfl, rfl⟩

theorem timeoutCheck_transactionStep {s : State} (hr : s.rpoll = .draining) (hq : s.rxq = []) :
    TransactionStep s .block (timeoutCheck s) := by
  rcases timeoutCheck_cases s with ⟨hdue, h⟩ | ⟨-, h⟩ <;> rw [h]
  · exact .timesOut _ hr hq hdue rfl rfl
  · exact .keeps _ _ ⟨rfl, rfl⟩

/-- Every move is one of those of `TransactionStep`. -/
theorem MoveStep.transactionStep {s t : State} {m : Move} (h : MoveStep s m t) : TransactionStep s m t := by
  cases h with
  | phase hr => exact phaseStep_transactionStep s
  | byte b q hr hq =>
    obtain ⟨hlog, hpend⟩ := byteStep_keepsLogAndPending { s with rxq := q } b
    exact .keeps _ _ ⟨hlog, hpend⟩
  | timeout hr hq => exact timeoutCheck_transactionStep hr hq
  | frame u hr he =>
    rcases exec_assembledFrame_cases he with ⟨hlog, hpend⟩ | ⟨hack, rfl⟩
    · exact .keeps _ _ ⟨hlog, hpend⟩
    · exact .acknowledged _ hr hack rfl rfl
  | pollReturn hr => exact .keeps _ _ (pollReturn_keepsLogAndPending s)
  | host w i t hd hp he =>
    obtain ⟨hlog, hpend⟩ := he.keepsLogAndPending
    exact .keeps _ _ ⟨hlog, hpend⟩
  | reset => exact .reset _ rfl rfl
  | notAccepted | codec | envRx | envTick | envDrop => exact .keeps _ _ ⟨rfl, rfl⟩

/-- Settles O42: the one step that touches TXLOG is SEND's write, where the invariant says that the buffer
holds the encoded frame and that an acknowledged one has the line to itself. -/
theorem writesOnlyWholeFramesOneInFlight : Obligations.WritesOnlyWholeFramesOneInFlight := by
  intro s t hinv h
  obtain ⟨m, r, hm, hstep⟩ := step_moveStep h
  rw [hm]
  cases hstep.transactionStep with
  | writes _ o a c g hp hlog =>
    refine .inr ⟨o, a, c, g, rfl, hp, ?_, fun ha => hinv.write_exclusive o c g (ha ▸ hp)⟩
    rw [hlog, ← hinv.txb_encoded o a c g hp]
  | keeps _ _ hkeeps => exact .inl hkeeps.txlog
  | records _ _ _ _ _ hlog => exact .inl hlog
  | acknowledged _ _ _ hlog => exact .inl hlog
  | timesOut _ _ _ _ hlog => exact .inl hlog
  | reset _ hlog => exact .inl hlog

/-- A transaction that is pending and then is not has met one of the two events or the reset line. -/
theorem TransactionStep.resolved {s t : State} {m : Move} (h : TransactionStep s m t)
    (hs : s.pending.valid = true) (ht : t.pending.valid = false) :
    m = .reset ∨ (m = .block ∧ s.rpoll = .frame ∧ HoldsAck s.rxf) ∨
      (m = .block ∧ s.rpoll = .draining ∧ s.rxq = [] ∧ timeoutDue s = true) := by
  cases h with
  | reset => exact .inl rfl
  | acknowledged _ hr hack => exact .inr (.inl ⟨rfl, hr, hack⟩)
  | timesOut _ hr hq hdue => exact .inr (.inr ⟨rfl, hr, hq, hdue⟩)
  | keeps _ _ hkeeps => simp [hkeeps.pending, hs] at ht
  | writes _ _ _ _ _ _ _ hpend => simp [hpend, hs] at ht
  | records _ _ _ _ _ _ hpend => simp [hpend] at ht

/-- Only the record of a SEND makes a transaction pending. -/
theorem TransactionStep.recorded {s t : State} {m : Move} (h : TransactionStep s m t)
    (hs : s.pending.valid = false) (ht : t.pending.valid = true) :
    m = .block ∧ ∃ o c g, s.tmPhase = .sendRecord o c g := by
  cases h with
  | records _ o c g hp => exact ⟨rfl, o, c, g, hp⟩
  | keeps _ _ hkeeps => simp [hkeeps.pending, hs] at ht
  | writes _ _ _ _ _ _ _ hpend => simp [hpend, hs] at ht
  | acknowledged _ _ _ _ hpend => simp [hpend] at ht
  | timesOut _ _ _ _ _ hpend => simp [hpend] at ht
  | reset _ _ hpend => simp [hpend] at ht

/-- Settles O43: `TransactionStep.resolved` and `TransactionStep.recorded` for the move taken. -/
theorem pendingResolvedOnlyByAckOrTimeout : Obligations.PendingResolvedOnlyByAckOrTimeout := by
  intro s t h
  obtain ⟨m, r, hm, hstep⟩ := step_moveStep h
  rw [hm]
  exact ⟨hstep.transactionStep.resolved, hstep.transactionStep.recorded⟩

/-! ### SEND and WAITEV step by step -/

theorem startSend_of_free {a : Bool} {s : State} (o : Owner) (c : Byte) (g : U16)
    (h : a = false ∨ s.pending.valid = false) : startSend o c g a s = beginWrite o a c g s := by
  rcases startSend_cases o c g a s with ⟨ha, hv, -⟩ | ⟨-, he⟩
  · simp [ha, hv] at h
  · exact he

theorem startSend_of_pending {s : State} (o : Owner) (c : Byte) (g : U16) (h : s.pending.valid = true) :
    startSend o c g true s = beginPoll { s with tmPhase := .sendBlocked o c g } := by
  rw [startSend, h]
  rfl

/-- A poll in a blocked SEND returns to the loop test (43_transaction.md R141). -/
theorem pollReturn_sendBlocked {s : State} {o : Owner} {c : Byte} {g : U16}
    (hp : s.tmPhase = .sendBlocked o c g) :
    pollReturn s = if s.pending.valid then beginPoll s else beginWrite o true c g s := by
  rw [pollReturn, hp]

/-- A poll in WAITEV returns to the test of the flag and then of the clock (R148). -/
theorem pollReturn_waitEvent {s : State} {o : Owner} {t0 d : Time} (hp : s.tmPhase = .waitEvent o t0 d) :
    pollReturn s =
      if s.ev.available then waitReturn o true s
      else if hasElapsed t0 d s then waitReturn o false s else beginPoll s := by
  rw [pollReturn, hp]

/-- A SEND without acknowledgment returns when QUIESCE has passed since its write (R144). -/
theorem phaseStep_sendQuiesce {s : State} {o : Owner} {t0 : Time} (hp : s.tmPhase = .sendQuiesce o t0) :
    phaseStep s = if hasElapsed t0 Config.QUIESCE s then sendReturn o s else s := by
  rw [phaseStep, hp]

/-- The meaning of a host operation that finds no other in progress. -/
theorem next_whenIdle {f : State → State} {s t : State} (hp : s.tmPhase = .idle)
    (hf : f { s with accepted := true } = t) :
    (.next (whenIdle f s) : Host.Outcome State Fault Refusal) = .next t := by
  rw [whenIdle_idle f hp, hf]

/-- Settles O37: each of the four operations is a SEND that is free to begin its write. -/
theorem sendPutsFrameInBuffer : Obligations.SendPutsFrameInBuffer := by
  intro c g a s hp
  refine ⟨fun h => ⟨?send, ?init⟩, fun h => ?sendm, fun h => ?query⟩
  case send => exact next_whenIdle hp (startSend_of_free .direct c g h)
  case init => exact next_whenIdle hp (startSend_of_free .init Config.RESET_CMD Config.RESET_ARG h)
  case sendm => exact next_whenIdle hp (startSend_of_free .direct c g h)
  case query => exact next_whenIdle hp (startSend_of_free .query c g (.inr h))

/-- Settles O38: each of the four operations is a SEND that finds a transaction pending, and the loop test is
the return of its poll (`step_block_pollReturn`). -/
theorem sendBlocksWhilePending : Obligations.SendBlocksWhilePending := by
  refine ⟨fun c g s hp hv => ⟨?send, ?query, ?init, fun hmode => ?sendm⟩, ?loop⟩
  case send => exact next_whenIdle hp (startSend_of_pending .direct c g hv)
  case query => exact next_whenIdle hp (startSend_of_pending .query c g hv)
  case init => exact next_whenIdle hp (startSend_of_pending .init Config.RESET_CMD Config.RESET_ARG hv)
  case sendm =>
    refine next_whenIdle hp ?_
    rw [hmode]
    exact startSend_of_pending .direct c g hv
  case loop =>
    intro s s' o c g ht hr hp
    rw [step_block_pollReturn ht hr, pollReturn_sendBlocked hp]
    rfl

/-- Settles O39: the ten bytes are those of the encoded frame, field by field. -/
theorem txFrameAppendsTenBytes : Obligations.TxFrameAppendsTenBytes :=
  fun _ _ _ _ => rfl

/-- The time test on natural numbers (43_transaction.md R152). -/
theorem hasElapsed_iff (t d : Time) (s : State) :
    hasElapsed t d s = true ↔ d.toNat ≤ (s.clock - t).toNat := by
  rw [hasElapsed, decide_eq_true_iff, BitVec.le_def]
  rfl

/-- Settles O44: WAITEV begins with a poll, and tests where its poll returns (`step_block_pollReturn`). -/
theorem waitevPollsThenTests : Obligations.WaitevPollsThenTests := by
  refine ⟨fun d s hp => next_whenIdle hp rfl, ?_⟩
  intro s s' t0 d ht hr hp
  simp only [step_block_pollReturn ht hr, pollReturn_waitEvent hp, ← hasElapsed_iff]
  rfl

/-! ### SEND as one run -/

theorem run_succ {M : Host.Core} {s u : M.State} (k : Nat) (hstep : M.step s = .next u) :
    M.run (k + 1) s = M.run k u := by
  rw [Host.Core.run, hstep]

/-- A run begins with a step. -/
theorem runsTo_succ {k : Nat} {s u t : State} (hstep : step s = .next u) (hrun : runsTo k u t) :
    runsTo (k + 1) s t :=
  (run_succ (M := core) k hstep).trans hrun

/-- The word of SEND, presented to an idle port with nothing to wait for, puts the frame into TXB. -/
theorem step_host_send {s : State} {c : Byte} {g : U16} {a : Bool} {r : List Move}
    (hm : s.moves = .host (hostWord 0x2 a false c g 0) :: r) (hp : s.tmPhase = .idle)
    (hfree : a = false ∨ s.pending.valid = false) :
    step s = .next (beginWrite .direct a c g { s with moves := r, accepted := true }) := by
  have hw : fetchWord s =
      some (.port, .host (hostWord 0x2 a false c g 0), { s with moves := r }) := by
    rw [fetchWord, takeMove_of_moves hm]
  have he : exec (.send c g a) { s with moves := r } =
      .next (beginWrite .direct a c g { s with moves := r, accepted := true }) :=
    next_whenIdle hp (startSend_of_free .direct c g hfree)
  rw [step_of_fetchWord hw (decodeEncodeAgree (.send c g a) rfl), he]
  rfl

/-- Settles O40: the host's word, a tick, the write, a tick, the record. -/
theorem ackSendRecordsTransaction : Obligations.AckSendRecordsTransaction := by
  intro s c g d1 d2 hp hr hv hm
  have hrest : s = { s with tmPhase := .idle, rpoll := .none } := by rw [← hp, ← hr]
  refine runsTo_succ (step_host_send hm hp (.inr hv)) ?_
  refine runsTo_succ (step_envTick (takeMove_of_moves rfl)) ?_
  refine runsTo_succ (step_block_phase (takeMove_of_moves rfl) rfl) ?_
  refine runsTo_succ (step_envTick (takeMove_of_moves rfl)) ?_
  refine runsTo_succ (step_block_phase (takeMove_of_moves rfl) rfl) ?_
  rw [hrest]
  rfl

/-- Settles O41: the host's word, the write, a tick, and the test of QUIESCE, whose elapsed time is the
tick. -/
theorem plainSendWaitsQuiescence : Obligations.PlainSendWaitsQuiescence := by
  intro s c g d hp hr hm
  have hquiesce : Config.QUIESCE.toNat = 10 := rfl
  have hrest : s = { s with tmPhase := .idle, rpoll := .none } := by rw [← hp, ← hr]
  refine runsTo_succ (step_host_send hm hp (.inl rfl)) ?_
  refine runsTo_succ (step_block_phase (takeMove_of_moves rfl) rfl) ?_
  refine runsTo_succ
    (u := { s with
      moves := [.block], accepted := true, clock := s.clock + d, rpoll := .none
      txb := encodeFrame c 0x00 g, txlog := s.txlog ++ (encodeFrame c 0x00 g).bytes
      tmPhase := .sendQuiesce .direct s.clock })
    (step_envTick (takeMove_of_moves rfl)) ?_
  refine runsTo_succ (step_block_phase (takeMove_of_moves rfl) rfl) ?_
  rw [phaseStep_sendQuiesce rfl, hrest]
  simp only [hasElapsed_iff, add_sub_cancel_left, hquiesce]
  split_ifs <;> rfl

end Sys2Proof.Machine

/-! The driver (44_driver.md): the reads, INIT and QUERY step by step, how a QUERY ends, and POLL as one run,
over a frame and over an empty queue. -/

namespace Sys2Proof.Machine

/-! ### The operations of one step -/

/-- Settles O45: each read yields its field and clears the flag. -/
theorem readsReturnFieldAndClearFlag : Obligations.ReadsReturnFieldAndClearFlag :=
  fun _ hp => ⟨next_whenIdle hp rfl, next_whenIdle hp rfl, next_whenIdle hp rfl⟩

/-- Settles O50: the mode SENDM reads is not touched by the port's acceptance of the word. -/
theorem sendmIsSendInAckMode : Obligations.SendmIsSendInAckMode :=
  fun _ _ _ => rfl

/-! ### The places that INIT and QUERY go through (43_transaction.md R145, R148) -/

section
variable {s s' : State} (ht : takeMove s = (.block, s'))
include ht

/-- Phase 3a of SEND: the record, and the return to the owner. -/
theorem step_sendRecord {o : Owner} {c : Byte} {g : U16} (hr : s'.rpoll = .none)
    (hp : s'.tmPhase = .sendRecord o c g) :
    step s = .next (sendReturn o (recordPending c g s')) := by
  rw [step_block_phase ht hr, phaseStep, hp]

/-- The WAITEV of INIT or QUERY is entered. -/
theorem step_waitStart {o : Owner} {d : Time} (hr : s'.rpoll = .none) (hp : s'.tmPhase = .waitStart o d) :
    step s = .next (startWait o d s') := by
  rw [step_block_phase ht hr, phaseStep, hp]

/-- A poll in WAITEV is over: the flag is tested and then the clock. -/
theorem step_waitEvent {o : Owner} {t0 d : Time} (hr : s'.rpoll = .finished)
    (hp : s'.tmPhase = .waitEvent o t0 d) :
    step s = .next
      (if s'.ev.available then waitReturn o true s'
       else if d.toNat ≤ (s'.clock - t0).toNat then waitReturn o false s' else beginPoll s') := by
  simp only [step_block_pollReturn ht hr, pollReturn_waitEvent hp, hasElapsed_iff]

end

/-! ### INIT (44_driver.md R164) -/

/-- The judgement that ends INIT, as a proposition. -/
theorem finishInit_eq (arrived : Bool) (s : State) :
    finishInit arrived s = finish
      (.bit (decide (s.ackMode = false ∨
        (arrived = true ∧ (s.ev.kind = .cardOnline ∨ s.ev.kind = .usbOnline))))) (clearAvailable s) := by
  have hjudge : (!s.ackMode || (arrived && (s.ev.kind == .cardOnline || s.ev.kind == .usbOnline))) =
      decide (s.ackMode = false ∨
        (arrived = true ∧ (s.ev.kind = .cardOnline ∨ s.ev.kind = .usbOnline))) := by
    rw [Bool.eq_iff_iff]
    simp
  rw [finishInit, hjudge]

/-- An event that is CardOnline is success whatever the mode. -/
theorem finishInit_of_cardOnline {s : State} (hk : s.ev.kind = .cardOnline) :
    finishInit true s = finish (.bit true) (clearAvailable s) := by
  simp [finishInit_eq, hk]

/-- Settles O46: the kind that INIT assumes is CardOnline. -/
theorem initWithoutResetSucceeds : Obligations.InitWithoutResetSucceeds :=
  fun _ _ hp => next_whenIdle hp (finishInit_of_cardOnline rfl)

/-- INIT ends when SETTLE_DELAY has passed. -/
theorem phaseStep_initSettle {s : State} {arrived : Bool} {t0 : Time}
    (hp : s.tmPhase = .initSettle arrived t0) :
    phaseStep s = if hasElapsed t0 Config.SETTLE_DELAY s then finishInit arrived s else s := by
  rw [phaseStep, hp]

/-- Settles O47: the return of the SEND, the entry of the WAITEV, the tests where its poll returns, and the
judgement after the settle delay (`finishInit_eq`). -/
theorem initWaitsSettlesAndJudges : Obligations.InitWaitsSettlesAndJudges := by
  intro s s' ht
  have hquiesce : Config.QUIESCE.toNat = 10 := rfl
  refine ⟨fun c g hr hp => ?record, fun t0 hr hp => ?quiesce, fun d hr hp => ?wait,
    fun t0 d hr hp => ?poll, fun arrived t0 hr hp => ?settle⟩
  case record => exact step_sendRecord ht hr hp
  case quiesce =>
    simp only [step_block_phase ht hr, phaseStep_sendQuiesce hp, hasElapsed_iff, hquiesce]
    rfl
  case wait => exact step_waitStart ht hr hp
  case poll => exact step_waitEvent ht hr hp
  case settle =>
    simp only [step_block_phase ht hr, phaseStep_initSettle hp, hasElapsed_iff, finishInit_eq]
    rfl

/-! ### QUERY (44_driver.md R165) -/

/-- Settles O48: as for INIT, up to the tests where the poll of the WAITEV returns; the answer follows
there. -/
theorem queryWaitsAndAnswers : Obligations.QueryWaitsAndAnswers := by
  intro s s' ht
  refine ⟨fun c g hr hp => ?record, fun d hr hp => ?wait, fun t0 d hr hp => ?poll⟩
  case record => exact step_sendRecord ht hr hp
  case wait => exact step_waitStart ht hr hp
  case poll => exact step_waitEvent ht hr hp

/-- QUERY reads the event that arrived, and ends without a read only where none did. -/
theorem finishQuery_available {arrived : Bool} {s : State} (h : arrived = false → s.ev.available = false) :
    (finishQuery arrived s).ev.available = false := by
  rcases finishQuery_cases arrived s with ⟨-, he⟩ | ⟨ha, he⟩ <;> rw [he]
  · rfl
  · exact h ha

/-- A poll that returns to a QUERY goes on waiting or leaves no event available. -/
theorem pollReturn_query {s : State} {t0 d : Time} (hp : s.tmPhase = .waitEvent .query t0 d) :
    (pollReturn s).tmPhase = s.tmPhase ∨ (pollReturn s).ev.available = false := by
  rw [pollReturn_waitEvent hp]
  split_ifs with havail
  · exact .inr (finishQuery_available nofun)
  · exact .inr (finishQuery_available fun _ => Bool.eq_false_iff.mpr havail)
  · exact .inl rfl

/-- A QUERY in its WAITEV stays there, or ends with no event available: where its poll returns, or with the
reset line. -/
theorem MoveStep.query_waits_or_ends {s t : State} {m : Move} {t0 d : Time} (h : MoveStep s m t)
    (hp : s.tmPhase = .waitEvent .query t0 d) : t.tmPhase = s.tmPhase ∨ t.ev.available = false := by
  cases h with
  | phase hr => exact .inl (by rw [phaseStep, hp]; exact hp)
  | byte b q hr hq =>
    have hbyte := (feedByte_pollKeeps { s with rxq := q } b).tmPhase
    exact .inl ((afterByte_pollKeeps _).tmPhase.trans hbyte)
  | timeout hr hq => exact .inl (timeoutCheck_pollKeeps s).tmPhase
  | frame u hr he =>
    have hframe : u.tmPhase = s.tmPhase := (exec_rxRow_pollKeeps he).tmPhase
    exact .inl hframe
  | pollReturn hr => exact pollReturn_query hp
  | host w i t hd hidle he => cases hp.symm.trans hidle
  | reset => exact .inr rfl
  | notAccepted | codec | envRx | envTick | envDrop => exact .inl rfl

/-- Settles O49: `MoveStep.query_waits_or_ends` for the move taken. -/
theorem queryLeavesNoEventAvailable : Obligations.QueryLeavesNoEventAvailable := by
  intro s t t0 d h hp hidle
  obtain ⟨m, r, -, hstep⟩ := step_moveStep h
  rcases hstep.query_waits_or_ends hp with hwaits | hends
  · cases (hwaits.trans hp).symm.trans hidle
  · exact hends

/-! ### POLL begins (44_driver.md R160) -/

theorem exec_poll {s : State} (hp : s.tmPhase = .idle) :
    exec .poll s = .next (beginPoll { s with accepted := true, tmPhase := .poll }) :=
  next_whenIdle hp rfl

/-- The word of POLL, presented to an idle port, begins a receiver poll. -/
theorem step_host_poll {s : State} {r : List Move}
    (hm : s.moves = .host (hostWord 0x3 false false 0 0 0) :: r) (hp : s.tmPhase = .idle) :
    step s = .next (beginPoll { s with moves := r, accepted := true, tmPhase := .poll }) := by
  have hw : fetchWord s = some (.port, .host (hostWord 0x3 false false 0 0 0), { s with moves := r }) := by
    rw [fetchWord, takeMove_of_moves hm]
  have he : exec .poll { s with moves := r } = _ := exec_poll hp
  rw [step_of_fetchWord hw (decodeEncodeAgree .poll rfl), he]
  rfl

/-- With no move to come the block moves. -/
theorem takeMove_of_none {s : State} (hm : s.moves = []) : takeMove s = (.block, s) := by
  rw [takeMove, hm]

/-- POLL is over when its poll is, and yields the flag. -/
theorem pollReturn_poll {s : State} (hp : s.tmPhase = .poll) :
    pollReturn s = finish (.bit s.ev.available) s := by
  rw [pollReturn, hp]

/-- With nothing pending the time-out check has nothing to report (41_receiver.md R104, R105). -/
theorem step_block_nothing_due {s s' : State} (ht : takeMove s = (.block, s')) (hr : s'.rpoll = .draining)
    (hq : s'.rxq = []) (hv : s'.pending.valid = false) :
    step s = .next { s' with report := .noData, rpoll := .finished } := by
  rw [step_block_timeout ht hr hq]
  rcases timeoutCheck_cases s' with ⟨hdue, -⟩ | ⟨-, h⟩
  · simp [timeoutDue, hv] at hdue
  · rw [h]

/-- Settles O26: POLL's first step, then the time-out check over the empty queue, then the return. -/
theorem pollWithNothingToReport : Obligations.PollWithNothingToReport := by
  intro s hp
  refine ⟨exec_poll hp, fun hr hq hv hm => ?_⟩
  have hrest : s = { s with tmPhase := .idle, rpoll := .none } := by rw [← hp, ← hr]
  refine runsTo_succ (step_host_poll hm hp) ?_
  refine runsTo_succ (step_block_nothing_due (takeMove_of_none rfl) rfl hq hv) ?_
  refine runsTo_succ (step_block_pollReturn (takeMove_of_none rfl) rfl) ?_
  rw [pollReturn_poll rfl, hrest]
  rfl

/-! ### A poll over the bytes of a frame (41_receiver.md R102) -/

/-- The state with RXQ holding `q`. -/
def withRxq (q : List Byte) (s : State) : State := { s with rxq := q }

/-- A byte step reads nothing of RXQ: its byte has been taken before. -/
theorem feedByte_withRxq (q : List Byte) (s : State) (b : Byte) :
    feedByte (withRxq q s) b = withRxq q (feedByte s b) := by
  cases hr : s.rxState
  case expectVersion =>
    rw [feedByte_expectVersion hr, feedByte_expectVersion (s := withRxq q s) hr]
    split_ifs <;> rfl
  case expectLength =>
    rw [feedByte_expectLength hr, feedByte_expectLength (s := withRxq q s) hr]
    split_ifs <;> rfl
  all_goals
    rw [feedByte_at hr rfl, feedByte_at (s := withRxq q s) hr rfl]
    rfl

/-- With no move to come a poll takes the byte at the head of RXQ. -/
theorem step_polls_byte {s : State} {b : Byte} {q : List Byte} (hm : s.moves = [])
    (hr : s.rpoll = .draining) :
    step (withRxq (b :: q) s) = .next (afterByte (withRxq q (feedByte s b))) := by
  have htake : takeMove (withRxq (b :: q) s) = (.block, withRxq (b :: q) s) := takeMove_of_none hm
  rw [step_block_byte htake hr rfl, ← feedByte_withRxq]
  rfl

/-- A byte step leaves the poll and the moves to come alone. -/
theorem feedByte_rpoll_moves (s : State) (b : Byte) :
    (feedByte s b).rpoll = s.rpoll ∧ (feedByte s b).moves = s.moves := by
  obtain ⟨_, _, _, h, -⟩ := feedByte_cases s b
  rw [h]
  exact ⟨rfl, rfl⟩

/-- After a byte step that yields `continue` the poll goes on. -/
theorem step_polls_byte_of_noData {s : State} {b : Byte} {q : List Byte} (hm : s.moves = [])
    (hr : s.rpoll = .draining) (hcontinue : (feedByte s b).report = .noData) :
    step (withRxq (b :: q) s) = .next (withRxq q (feedByte s b)) := by
  have hafter : afterByte (withRxq q (feedByte s b)) = withRxq q (feedByte s b) := by
    rw [afterByte, show (withRxq q (feedByte s b)).report = .noData from hcontinue]
  rw [step_polls_byte hm hr, hafter]

/-- A poll takes the bytes at the head of RXQ, one a step, up to the first that yields more than `continue`,
and none after it. -/
theorem runsTo_of_polled_bytes {s t : State} {bs rest : List Byte} {y : PollResult} {n k : Nat}
    (hm : s.moves = []) (hr : s.rpoll = .draining)
    (hreports : feedReports s bs = List.replicate n .noData ++ [y])
    (hrun : runsTo k (afterByte (withRxq rest (feed s bs))) t) :
    runsTo (k + n + 1) (withRxq (bs ++ rest) s) t := by
  induction n generalizing s bs with
  | zero =>
    match bs with
    | [] => cases hreports
    | [b] => exact runsTo_succ (step_polls_byte hm hr) hrun
    | _ :: _ :: _ => simp [feedReports_cons] at hreports
  | succ n ih =>
    match bs with
    | [] => simp [feedReports, List.replicate_succ] at hreports
    | b :: bs =>
      rw [feedReports_cons, List.replicate_succ, List.cons_append, List.cons.injEq] at hreports
      obtain ⟨hcontinue, hreports⟩ := hreports
      obtain ⟨hr', hm'⟩ := feedByte_rpoll_moves s b
      exact runsTo_succ (step_polls_byte_of_noData hm hr hcontinue)
        (ih (hm'.trans hm) (hr'.trans hr) hreports hrun)

/-- The frame that RXF has taken over is classified, and the poll is over (42_classifier.md R110). -/
theorem step_block_validFrame {s s' : State} {f : Frame} (ht : takeMove s = (.block, s'))
    (hr : s'.rpoll = .frame) (hx : s'.rxf = rxFieldsOf f) (hvalid : validateFrame f = true) :
    step s = .next
      { applyOutcome (classify f.command f.parameter) f.command f.parameter s' with
        rpoll := .finished } := by
  obtain ⟨-, hversion, hlength, -, hsum⟩ := validateFrame_iff.mp hvalid
  have hfield : f.cksum = frameChecksum f.command f.ackFlag f.parameter := by
    rw [hsum, hversion, hlength, frameChecksum, Frame.parameter, hiByte_pair, loByte_pair]
  have hrow : exec (rxRow f.command f.ackFlag f.parameter f.cksum) s' =
      .next (applyOutcome (classify f.command f.parameter) f.command f.parameter s') := by
    rw [exec_rxRow, hfield, receiveFrame_of_checksum]
  rw [step_block_frame ht hr, hx]
  exact congrArg (onNext (commit .rxFrame)) hrow

/-- A poll in Idle over a valid frame takes its ten bytes, leaves it in RXF and comes to classify it. -/
theorem runsTo_of_polled_frame {s t : State} {f : Frame} {rest : List Byte} {k : Nat}
    (hm : s.moves = []) (hr : s.rpoll = .draining) (hx : s.rxState = .idle) (hvalid : validateFrame f = true)
    (hrun : runsTo k
      { s with
        rxState := .idle, rxf := rxFieldsOf f, report := .frameReady f.command f.parameter
        rxq := rest, rpoll := .frame } t) :
    runsTo (k + 10) (withRxq (f.bytes ++ rest) s) t := by
  obtain ⟨hheader, hversion, hlength, -, -⟩ := validateFrame_iff.mp hvalid
  have hready : endResult (rxFieldsOf f) f.endMark = .frameReady f.command f.parameter := by
    obtain ⟨⟨-, hreport⟩, -⟩ := tenBytesReadyIffValid s f hx
    rw [← hreport hvalid, feed_bytes_of_constants hx hheader hversion hlength, byteStep_report]
  refine runsTo_of_polled_bytes (n := 9) hm hr (feedReports_bytes_of_valid hx hvalid) ?_
  rw [feed_bytes_of_constants hx hheader hversion hlength, hready]
  exact hrun

/-- Settles O25: POLL's first step, the ten bytes (`runsTo_of_polled_frame`), the classification, and the
return. -/
theorem pollDeliversOneFrame : Obligations.PollDeliversOneFrame := by
  intro s f rest k hp hr hx hm hq hvalid hevent
  have hrest : s = { s with tmPhase := .idle, rpoll := .none, rxState := .idle } := by
    rw [← hp, ← hr, ← hx]
  refine runsTo_succ (step_host_poll hm hp) ?_
  rw [hq]
  refine runsTo_of_polled_frame (k := 2)
    (s := beginPoll { s with moves := [], accepted := true, tmPhase := .poll }) rfl rfl hx hvalid ?_
  refine runsTo_succ (step_block_validFrame (takeMove_of_none rfl) rfl rfl hvalid) ?_
  rw [hevent]
  refine runsTo_succ (step_block_pollReturn (takeMove_of_none rfl) rfl) ?_
  rw [pollReturn_poll rfl, hrest]
  rfl

end Sys2Proof.Machine

/-! Exceptions (60_exceptions.md): the engine never halts, and an error of the receiver is taken completely
in the step that finds it. -/

namespace Sys2Proof.Machine

/-! ### Every step gives a next state (60_exceptions.md R180) -/

/-- No instruction's meaning is a fault or a refusal: every arm of the dispatch is a next state. -/
theorem exec_eq_next (i : Instr) (s : State) : ∃ t, exec i s = .next t := by
  cases i <;> exact ⟨_, rfl⟩

/-- A step runs a fetched instruction, whose next state it completes, or makes another move. -/
theorem step_eq_next (s : State) : ∃ t, step s = .next t := by
  unfold step
  cases fetch s with
  | run src i s' =>
    obtain ⟨u, hu⟩ := exec_eq_next i s'
    exact ⟨commit src u, onNext_eq_next.mpr ⟨u, hu, rfl⟩⟩
  | other => exact ⟨otherMove s, rfl⟩

/-- Settles O7: `exec_eq_next` for the instructions, `step_eq_next` for the steps. -/
theorem engineNeverHalts : Obligations.EngineNeverHalts :=
  ⟨exec_eq_next, step_eq_next⟩

/-! ### Errors found by the receiver (60_exceptions.md R184) -/

/-- The byte at ExpectEnd brings the receiver to Idle with the result of the two tests
(41_receiver.md R100). -/
theorem feedByte_expectEnd {s : State} (hs : s.rxState = .expectEnd) (b : Byte) :
    feedByte s b = byteStep .idle (endResult s.rxf b) s :=
  feedByte_at hs rfl

/-- A byte step of a poll that reports an error takes the error in the same step and ends the poll. The
byte step never reports TimedOut, which would leave the receiver as it is. -/
theorem step_block_malformed {s s' : State} {b : Byte} {q : List Byte} {e : ErrCause}
    (ht : takeMove s = (.block, s')) (hr : s'.rpoll = .draining) (hq : s'.rxq = b :: q)
    (he : e ≠ .timedOut) (hbyte : feedByte s' b = byteStep .idle (.malformed e) s') :
    step s = .next
      { s' with
        rxq := q, rxState := .idle, report := .malformed e, rpoll := .finished
        ev := { kind := .wrongStack, parameter := Config.ERR_PARAM e, command := s'.ev.command,
                available := true } } := by
  have hfeed : feedByte { s' with rxq := q } b = withRxq q (byteStep .idle (.malformed e) s') := by
    rw [← hbyte]
    exact feedByte_withRxq q s' b
  have hafter : afterByte (withRxq q (byteStep .idle (.malformed e) s')) =
      { takeFrameError e none (withRxq q (byteStep .idle (.malformed e) s')) with
        rpoll := .finished } := rfl
  rw [step_block_byte ht hr hq, hfeed, hafter]
  obtain ⟨htimedOut, -⟩ | ⟨-, htaken⟩ :=
    takeFrameError_cases e none (withRxq q (byteStep .idle (.malformed e) s'))
  · exact absurd htimedOut he
  · rw [htaken]
    rfl

/-- Settles O23: at each of the four causes the byte step reports that cause, and the error is taken at once
(`step_block_malformed`). -/
theorem framingErrorTakenAtItsByte : Obligations.FramingErrorTakenAtItsByte := by
  intro s s' b q e ht hr hq herror
  obtain ⟨hx, hb, rfl⟩ | ⟨hx, hb, rfl⟩ | ⟨hx, hb, rfl⟩ | ⟨hx, hb, rfl, hsum⟩ := herror
  · exact step_block_malformed ht hr hq nofun ((feedByte_expectVersion hx b).trans (if_neg hb))
  · exact step_block_malformed ht hr hq nofun ((feedByte_expectLength hx b).trans (if_neg hb))
  · have hend : endResult s'.rxf b = .malformed .badEnd := if_neg hb
    exact step_block_malformed ht hr hq nofun (by rw [feedByte_expectEnd hx, hend])
  · have hend : endResult s'.rxf b = .malformed .badChecksum := (if_pos hb).trans (if_neg hsum)
    exact step_block_malformed ht hr hq nofun (by rw [feedByte_expectEnd hx, hend])

end Sys2Proof.Machine

/-! ### At rest, and the reset line (70_reset_and_hazards.md R216, R200, R201) -/

namespace Sys2Proof.Machine

/-- With no host operation in progress there is no step of one to make. -/
theorem phaseStep_idle {s : State} (hp : s.tmPhase = .idle) : phaseStep s = s := by
  rw [phaseStep, hp]

/-- Settles O54: outside a poll the block's step is `phaseStep`, and at rest there is none. -/
theorem atRestNothingHappens : Obligations.AtRestNothingHappens := by
  intro s s' ht hp hr
  rw [step_block_phase ht hr, phaseStep_idle hp]

/-- The reset line is no word to be read, so its step is `hardReset`, whatever the block is doing. -/
theorem step_reset {s s' : State} (ht : takeMove s = (.reset, s')) : step s = .next (hardReset s') := by
  have hw : fetchWord s = none := by rw [fetchWord, ht]
  rw [step_of_no_word hw, otherMove, ht]

/-- Settles O58: the step is `hardReset` (`step_reset`), whose fields are read off by its `simp` lemmas. -/
theorem resetLineFromAnyState : Obligations.ResetLineFromAnyState := by
  intro s r hm
  refine ⟨hardReset { s with moves := r }, step_reset (takeMove_of_moves hm), ?_⟩
  simp

end Sys2Proof.Machine
